-- ==== Sys2Proof/Word.lean ====
section
/-! DEFINITION. The word types of DSPCORE's ports and buffers (R44, R80 to R89, R124). -/

namespace Sys2Proof

/-- Eight bits: a byte of a port word as a byte-addressed host sees it (R124). -/
abbrev Byte := BitVec 8

/-- Sixteen bits: one lane of a buffer element (R80 to R89). -/
abbrev Half := BitVec 16

/-- Thirty-two bits: the one size a port transaction moves (R126). -/
abbrev Word := BitVec 32

end Sys2Proof
end

