-- ==== Sys2Proof/Syntax.lean ====
section
/-! DEFINITION. The instructions of DSPCORE: the 14 commands and the 15 kinds of port transaction of
spec/opcode_table.json (R163, R164, R171), and the port transaction as a host drives it (R44, R45). -/

namespace Sys2Proof

/-- The two host ports (R44, R45). -/
inductive Port where
  | a
  | b
  deriving DecidableEq, Repr

/-- One constructor per row of the opcode table. A command has no operand (R162). A transaction carries its
32-bit write data, and, where its row matches any other offset, the word offset `addr[11:2]` (R46, R171);
the ignored address bits `1:0` are no part of an instruction. -/
inductive Instr where
  /-- NOP_A, opcode 0x00 on port A (R320). -/
  | aNopA
  /-- CAPTURE, opcode 0x01 on port A (R200). -/
  | aCapture
  /-- FILTER, opcode 0x02 on port A (R205). -/
  | aFilter
  /-- WINDOW, opcode 0x03 on port A (R245). -/
  | aWindow
  /-- FFT, opcode 0x04 on port A (R250). -/
  | aFft
  /-- POWER, opcode 0x05 on port A (R260). -/
  | aPower
  /-- DBCONV, opcode 0x06 on port A (R265). -/
  | aDbconv
  /-- SPECTRUM, opcode 0x07 on port A (R275). -/
  | aSpectrum
  /-- EDGE, opcode 0x08 on port A (R300). -/
  | aEdge
  /-- PUBLISH, opcode 0x09 on port A (R350). -/
  | aPublish
  /-- RUN, opcode 0x0A on port A (R321). -/
  | aRun
  /-- NOP_B, opcode 0x00 on port B (R355). -/
  | bNopB
  /-- POP, opcode 0x01 on port B (R356). -/
  | bPop
  /-- SWAP, opcode 0x02 on port B (R361). -/
  | bSwap
  /-- Read of MEM_DATA (R408). -/
  | aReadMemData
  /-- Write of MEM_DATA (R407). -/
  | aWriteMemData (v : Word)
  /-- Write of CMD_A: the issue of the command whose word is `v` (R160). -/
  | aWriteCmdA (v : Word)
  /-- Write of ERR_A: the clear (R403). -/
  | aWriteErrA (v : Word)
  /-- Write of MEM_SEL (R401). -/
  | aWriteMemSel (v : Word)
  /-- Write of MEM_IDX (R401). -/
  | aWriteMemIdx (v : Word)
  /-- Read of any other word offset of port A (R400). -/
  | aReadOther (off : BitVec 10)
  /-- Write of any other word offset of port A, which stores nothing (R402). -/
  | aWriteOther (off : BitVec 10) (v : Word)
  /-- Read of RD_DATA (R410). -/
  | bReadRdData
  /-- Write of CMD_B: the issue of the command whose word is `v` (R160). -/
  | bWriteCmdB (v : Word)
  /-- Write of ERR_B: the clear (R403). -/
  | bWriteErrB (v : Word)
  /-- Write of RD_SEL (R413). -/
  | bWriteRdSel (v : Word)
  /-- Write of RD_IDX (R413). -/
  | bWriteRdIdx (v : Word)
  /-- Read of any other word offset of port B (R400). -/
  | bReadOther (off : BitVec 10)
  /-- Write of any other word offset of port B, which stores nothing (R402). -/
  | bWriteOther (off : BitVec 10) (v : Word)
  deriving DecidableEq, Repr

/-- One transaction as a host drives it on its port (R23, R44, R45): `MemRead(P, addr, size)` or
`MemWrite(P, addr, size, data)`. Sizes other than 4 can be asked for, and are refused by name (R126). -/
structure Request where
  port  : Port
  write : Bool
  addr  : BitVec 12
  size  : Nat
  data  : Word
  deriving DecidableEq, Repr

end Sys2Proof
end

