-- ==== Sys2Proof/WellFormed.lean ====
section
/-! DEFINITION. Which terms of `Instr` stand for a row of the opcode table: an `other` row stands only for the
offsets that no more specific row of R171 takes. -/

namespace Sys2Proof

/-- Word offset of CMD_A and CMD_B (0x020, R60, R73). -/
def offCmd : BitVec 10 := 0x008
/-- Word offset of ERR_A and ERR_B (0x028, R60, R73). -/
def offErr : BitVec 10 := 0x00A
/-- Word offset of MEM_SEL and RD_SEL (0x050, R60, R73). -/
def offSel : BitVec 10 := 0x014
/-- Word offset of MEM_IDX and RD_IDX (0x054, R60, R73). -/
def offIdx : BitVec 10 := 0x015
/-- Word offset of MEM_DATA and RD_DATA (0x058, R60, R73). -/
def offData : BitVec 10 := 0x016

/-- The checks, one per `other` row of R171; every other constructor is well formed with any operand. A write
of RD_DATA is an `other` write of port B (R414). -/
def Instr.wellFormed : Instr → Bool
  | .aReadOther off => off != offData
  | .aWriteOther off _ => off != offCmd && off != offErr && off != offSel && off != offIdx && off != offData
  | .bReadOther off => off != offData
  | .bWriteOther off _ => off != offCmd && off != offErr && off != offSel && off != offIdx
  | .aNopA | .aCapture | .aFilter | .aWindow | .aFft | .aPower | .aDbconv | .aSpectrum | .aEdge | .aPublish
  | .aRun | .bNopB | .bPop | .bSwap | .aReadMemData | .aWriteMemData _ | .aWriteCmdA _ | .aWriteErrA _
  | .aWriteMemSel _ | .aWriteMemIdx _ | .bReadRdData | .bWriteCmdB _ | .bWriteErrB _ | .bWriteRdSel _
  | .bWriteRdIdx _ => true

end Sys2Proof
end

