-- ==== Sys2Proof/Decode.lean ====
section
/-! DEFINITION. The decoder of command words (R161 to R168) and of transactions (R171), total and rejecting by
name, and after it the encoder. -/

namespace Sys2Proof

/-- Why bits are no instruction. -/
inductive DecodeError where
  /-- A command word that R165 calls ILLEGAL; issuing it records error ILLEGAL (R166). -/
  | illegalCommand (w : Word)
  /-- A port access of another size than 4 bytes, which a model refuses by name (R126). -/
  | accessSize (n : Nat)
  /-- A 16-bit value whose bits 15:13 are not 0 is no 13-bit transaction word (R171, log 19). -/
  | transactionWord (w : Half)
  /-- Bytes that are neither a command word (4) nor a transaction word with its data (6) (R161, R171). -/
  | length (n : Nat)
  deriving DecidableEq, Repr

/-- The opcode map of port A (R163). -/
def opcodeA (op : BitVec 8) : Option Instr :=
  match op.toNat with
  | 0x00 => some .aNopA
  | 0x01 => some .aCapture
  | 0x02 => some .aFilter
  | 0x03 => some .aWindow
  | 0x04 => some .aFft
  | 0x05 => some .aPower
  | 0x06 => some .aDbconv
  | 0x07 => some .aSpectrum
  | 0x08 => some .aEdge
  | 0x09 => some .aPublish
  | 0x0A => some .aRun
  | _ => none

/-- The opcode map of port B (R164). -/
def opcodeB (op : BitVec 8) : Option Instr :=
  match op.toNat with
  | 0x00 => some .bNopB
  | 0x01 => some .bPop
  | 0x02 => some .bSwap
  | _ => none

/-- The opcode map of a port. -/
def opcode : Port → BitVec 8 → Option Instr
  | .a => opcodeA
  | .b => opcodeB

/-- `OPC`, bits 7:0 of a command word (R161). -/
def opcField (w : Word) : BitVec 8 := w.extractLsb' 0 8

/-- `RSVD`, bits 31:8 of a command word (R161). -/
def rsvdField (w : Word) : BitVec 24 := w.extractLsb' 8 24

/-- R165: a command word issued on a port. -/
def decodeCommand (p : Port) (w : Word) : Except DecodeError Instr :=
  if rsvdField w != 0 then .error (.illegalCommand w)
  else
    match opcode p (opcField w) with
    | some i => .ok i
    | none => .error (.illegalCommand w)

/-- R171, port A: the row with the larger mask applies. -/
def decodeTransactionA (we : Bool) (off : BitVec 10) (data : Word) : Instr :=
  match we with
  | false => if off = offData then .aReadMemData else .aReadOther off
  | true =>
    if off = offCmd then .aWriteCmdA data
    else if off = offErr then .aWriteErrA data
    else if off = offSel then .aWriteMemSel data
    else if off = offIdx then .aWriteMemIdx data
    else if off = offData then .aWriteMemData data
    else .aWriteOther off data

/-- R171, port B: the row with the larger mask applies. -/
def decodeTransactionB (we : Bool) (off : BitVec 10) (data : Word) : Instr :=
  match we with
  | false => if off = offData then .bReadRdData else .bReadOther off
  | true =>
    if off = offCmd then .bWriteCmdB data
    else if off = offErr then .bWriteErrB data
    else if off = offSel then .bWriteRdSel data
    else if off = offIdx then .bWriteRdIdx data
    else .bWriteOther off data

/-- R171: `TW = (we, addr[11:0])`, bit 12 the write enable, bits 11:2 the word offset, bits 1:0 ignored. -/
def decodeTransaction (p : Port) (tw : BitVec 13) (data : Word) : Instr :=
  match p with
  | .a => decodeTransactionA (tw.getLsbD 12) (tw.extractLsb' 2 10) data
  | .b => decodeTransactionB (tw.getLsbD 12) (tw.extractLsb' 2 10) data

/-- The transaction word of a request (R171). -/
def Request.tw (r : Request) : BitVec 13 := BitVec.ofBool r.write ++ r.addr

/-- A transaction as it stands on a port: of the one access size (R126), read by R171. -/
def decodeRequest (r : Request) : Except DecodeError Instr :=
  if r.size = 4 then .ok (decodeTransaction r.port r.tw r.data) else .error (.accessSize r.size)

/-- The two formats of R161 and R171, each with the port it stands on. -/
inductive Encoding where
  /-- A command word, the value written to CMD_A or CMD_B. -/
  | command (p : Port) (w : Word)
  /-- A transaction word with its write data (0 for a read). -/
  | transaction (p : Port) (tw : BitVec 13) (data : Word)
  deriving DecidableEq, Repr

/-- The decoder over both formats. -/
def decode : Encoding → Except DecodeError Instr
  | .command p w => decodeCommand p w
  | .transaction p tw data => .ok (decodeTransaction p tw data)

/-- Byte `k` of a value, bits `8k+7 .. 8k` (R124). -/
def byteOf (w k : Nat) : Byte := BitVec.ofNat 8 (w / 256 ^ k)

/-- The `n` low bytes of a value, the least significant first: the block is little-endian (R124). -/
def bytesLE (n w : Nat) : List Byte := (List.range n).map (byteOf w)

/-- The value of bytes, the least significant first (R124). -/
def ofBytesLE : List Byte → Nat
  | [] => 0
  | b :: bs => b.toNat + 256 * ofBytesLE bs

/-- The decoder on bytes: four bytes are a command word, six are a transaction word (two bytes, bits 15:13
zero) followed by its data word (log 20). -/
def decodeBytes (p : Port) (bs : List Byte) : Except DecodeError Instr :=
  if bs.length = 4 then decodeCommand p (BitVec.ofNat 32 (ofBytesLE bs))
  else if bs.length = 6 then
    let tw := ofBytesLE (bs.take 2)
    if tw < 2 ^ 13 then .ok (decodeTransaction p (BitVec.ofNat 13 tw) (BitVec.ofNat 32 (ofBytesLE (bs.drop 2))))
    else .error (.transactionWord (BitVec.ofNat 16 tw))
  else .error (.length bs.length)

/-- The instruction this decoder reads from an opcode-table word. The table's words do not hold the port, and
the words of port B's rows are also words of port A's: they are read on port A (log 11). A row of at most 16
bits is a transaction word, whose data word is above the row's bits and 0; else a command word. -/
def decodeTableWord (nbits w : Nat) : Option Instr :=
  if nbits ≤ 16 then (decodeBytes .a (bytesLE 2 w ++ bytesLE 4 0)).toOption
  else if nbits ≤ 32 then (decodeBytes .a (bytesLE 4 w)).toOption
  else none

/-! The encoder, from the same tables. -/

/-- A command word of an opcode, with `RSVD = 0` (R161). -/
def commandWord (op : BitVec 8) : Word := op.setWidth 32

/-- `TW` of a word offset, address bits 1:0 zero (R171). -/
def transactionWord (we : Bool) (off : BitVec 10) : BitVec 13 := BitVec.ofBool we ++ off ++ (0 : BitVec 2)

/-- The words of an instruction. -/
def encode : Instr → Encoding
  | .aNopA => .command .a (commandWord 0x00)
  | .aCapture => .command .a (commandWord 0x01)
  | .aFilter => .command .a (commandWord 0x02)
  | .aWindow => .command .a (commandWord 0x03)
  | .aFft => .command .a (commandWord 0x04)
  | .aPower => .command .a (commandWord 0x05)
  | .aDbconv => .command .a (commandWord 0x06)
  | .aSpectrum => .command .a (commandWord 0x07)
  | .aEdge => .command .a (commandWord 0x08)
  | .aPublish => .command .a (commandWord 0x09)
  | .aRun => .command .a (commandWord 0x0A)
  | .bNopB => .command .b (commandWord 0x00)
  | .bPop => .command .b (commandWord 0x01)
  | .bSwap => .command .b (commandWord 0x02)
  | .aReadMemData => .transaction .a (transactionWord false offData) 0
  | .aWriteMemData v => .transaction .a (transactionWord true offData) v
  | .aWriteCmdA v => .transaction .a (transactionWord true offCmd) v
  | .aWriteErrA v => .transaction .a (transactionWord true offErr) v
  | .aWriteMemSel v => .transaction .a (transactionWord true offSel) v
  | .aWriteMemIdx v => .transaction .a (transactionWord true offIdx) v
  | .aReadOther off => .transaction .a (transactionWord false off) 0
  | .aWriteOther off v => .transaction .a (transactionWord true off) v
  | .bReadRdData => .transaction .b (transactionWord false offData) 0
  | .bWriteCmdB v => .transaction .b (transactionWord true offCmd) v
  | .bWriteErrB v => .transaction .b (transactionWord true offErr) v
  | .bWriteRdSel v => .transaction .b (transactionWord true offSel) v
  | .bWriteRdIdx v => .transaction .b (transactionWord true offIdx) v
  | .bReadOther off => .transaction .b (transactionWord false off) 0
  | .bWriteOther off v => .transaction .b (transactionWord true off) v

/-- The port an encoding stands on. -/
def Encoding.port : Encoding → Port
  | .command p _ => p
  | .transaction p _ _ => p

/-- The bytes of an encoding, each word in the block's byte order, the first word first (R124, log 20). -/
def Encoding.bytes : Encoding → List Byte
  | .command _ w => bytesLE 4 w.toNat
  | .transaction _ tw data => bytesLE 2 tw.toNat ++ bytesLE 4 data.toNat

end Sys2Proof
end

