-- ==== Sys2Proof/Config.lean ====
section
/-! DEFINITION. What a built instance fixes (R12) and the free values: constants with no body, so that no proof
can know what they are. -/

namespace Sys2Proof

/-- The instrument mode (R14): the latched `mode_strap`, 0 SPECTRUM, 1 OSCILLOSCOPE. -/
inductive Mode where
  | spectrum
  | oscilloscope
  deriving DecidableEq, Repr

/-- The element spaces of R123 that the block can write. -/
inductive Space where
  | raw
  | filt
  | work
  | mag
  | db
  | staging
  | slot0
  | slot1
  deriving DecidableEq, Repr

/-- The independent elaboration parameters of R12, as a built instance holds them. -/
structure Params where
  adcBits    : Nat
  q15Shift   : Nat
  alphaQ15   : Nat
  rawSamples : Nat
  decimateN  : Nat
  log2Fft    : Nat
  oscSamples : Nat
  frameRate  : Nat
  dbMin      : Int
  dbMax      : Int
  dbEpsExp   : Nat
  syncStages : Nat
  deriving DecidableEq, Repr

/-- Every row of the parameter table of R12, as a builder supplies them: the independent ones and those the
table ties to others (`ADC_MID`, `FFT_SIZE`, `DOWNSAMPLED`, `TRIG_OFFSET`, `TRIG_GAIN`). -/
structure ParamSet where
  params      : Params
  adcMid      : Nat
  fftSize     : Nat
  downsampled : Nat
  trigOffset  : Nat
  trigGain    : Nat
  deriving DecidableEq, Repr

/-- ALPHA_Q15 of the instance `State.reset` describes: OPEN in R12, no value is assumed (log 2). -/
opaque Config.alphaQ15 : Fin 32769

/-- FRAME_RATE less one of the instance `State.reset` describes: OPEN in R12, no value is assumed (log 2). -/
opaque Config.frameRateLess1 : Fin 65535

/-- The unspecified contents of an element after reset (R95, U13): draw `n`, buffer, index (log 5). -/
opaque Config.powerOn : Nat → Space → Nat → Word

/-- The value a host reads from a diagnostic counter that holds `r`: draw `n`, with no law (R72, U2; log 6). -/
opaque Config.diagRead : Nat → Word → Word

end Sys2Proof
end

