-- ==== Sys2Proof/Machine/Sizes.lean ====
section
/-! DEFINITION. The sizes derived from the elaboration parameters (R12, R13) and the ranges a built instance
satisfies (R12, R15). -/

namespace Sys2Proof

/-- `ADC_MID = 2^(ADC_BITS-1)` (R12). -/
def Params.adcMid (p : Params) : Nat := 2 ^ (p.adcBits - 1)

/-- `FFT_SIZE = 2^LOG2_FFT` (R12). -/
def Params.fftSize (p : Params) : Nat := 2 ^ p.log2Fft

/-- `DOWNSAMPLED = FFT_SIZE` (R12). -/
def Params.downsampled (p : Params) : Nat := p.fftSize

/-- `BINS = FFT_SIZE / 2` (R13). -/
def Params.bins (p : Params) : Nat := p.fftSize / 2

/-- `RAWBUF_LEN = max(RAW_SAMPLES, OSC_SAMPLES)` (R13). -/
def Params.rawbufLen (p : Params) : Nat := max p.rawSamples p.oscSamples

/-- `FRAME_LEN` by mode (R13). -/
def Params.frameLen (p : Params) : Mode → Nat
  | .spectrum => p.bins
  | .oscilloscope => p.oscSamples

/-- `SLOT_CAP = max(BINS, OSC_SAMPLES)` (R13). -/
def Params.slotCap (p : Params) : Nat := max p.bins p.oscSamples

/-- `TRIG_OFFSET` (R12). -/
def trigOffset : Nat := 3

/-- `TRIG_GAIN` (R12). -/
def trigGain : Nat := 10

/-- The legal ranges of R12. -/
def Params.valid (p : Params) : Bool :=
  decide (1 ≤ p.adcBits ∧ p.adcBits ≤ 16 ∧ p.q15Shift ≤ 15 ∧ p.alphaQ15 ≤ 32768
    ∧ 1 ≤ p.rawSamples ∧ p.rawSamples ≤ 65535 ∧ 1 ≤ p.decimateN ∧ p.decimateN ≤ 65535
    ∧ 1 ≤ p.log2Fft ∧ p.log2Fft ≤ 15 ∧ 1 ≤ p.oscSamples ∧ p.oscSamples ≤ 65535
    ∧ 1 ≤ p.frameRate ∧ p.frameRate ≤ 65535 ∧ -32768 ≤ p.dbMin ∧ p.dbMin ≤ p.dbMax ∧ p.dbMax ≤ 32767
    ∧ 5 ≤ p.dbEpsExp ∧ p.dbEpsExp ≤ 6 ∧ 2 ≤ p.syncStages ∧ p.syncStages ≤ 255)

/-- R12 and R15 on the whole table: the ranges, and the rows tied to others (an invalid FFT size or a buffer
size mismatch is a fatal configuration error). -/
def ParamSet.valid (q : ParamSet) : Bool :=
  q.params.valid && q.adcMid == q.params.adcMid && q.fftSize == q.params.fftSize
    && q.downsampled == q.fftSize && q.trigOffset == Sys2Proof.trigOffset && q.trigGain == Sys2Proof.trigGain

/-- The values of R12; the two OPEN ones are free (log 2). -/
def defaultParams : Params where
  adcBits := 12
  q15Shift := 4
  alphaQ15 := Config.alphaQ15.val
  rawSamples := 5120
  decimateN := 10
  log2Fft := 9
  oscSamples := 256
  frameRate := Config.frameRateLess1.val + 1
  dbMin := -100
  dbMax := 0
  dbEpsExp := 6
  syncStages := 2

end Sys2Proof
end

