-- ==== Sys2Proof/Machine/Numeric.lean ====
section
/-! DEFINITION. The primitive functions of R20 on integers, and bit reversal (R251). -/

namespace Sys2Proof.Machine

/-- `clamp(v, lo, hi)` (R20). -/
def clamp (v lo hi : Int) : Int := min hi (max lo v)

/-- `sat16(v)`: clamp to the signed 16-bit range (R20). -/
def sat16 (v : Int) : Int := clamp v (-32768) 32767

/-- `v >> k`: the arithmetic shift right, `floor(v / 2^k)` (R20). -/
def asr (v : Int) (k : Nat) : Int := v >>> k

/-- `u16(v)`: the 16-bit two's-complement pattern (R20). -/
def u16 (v : Int) : Half := BitVec.ofInt 16 v

/-- `s16(b)`: the signed value of a 16-bit pattern (R20). -/
def s16 (b : Half) : Int := b.toInt

/-- `sext_32` of a 16-bit pattern (R20). -/
def sext32 (b : Half) : Word := b.signExtend 32

/-- `zext_32` of a 16-bit pattern (R20). -/
def zext32 (b : Half) : Word := b.zeroExtend 32

/-- `(hi, lo)` as one word, `lo` in bits 15:0 (R125). -/
def pack (hi lo : Half) : Word := hi ++ lo

/-- `bitrev_B(n)`: bit `i` of the result is bit `B-1-i` of `n` (R251). -/
def bitrev : Nat → Nat → Nat
  | 0, _ => 0
  | b + 1, n => (n % 2) * 2 ^ b + bitrev b (n / 2)

/-- The low `ADC_BITS` bits of a value: `adc_data[ADC_BITS-1:0]` (R47) or `v[ADC_BITS-1:0]` (R407). -/
def adcBitsOf (p : Params) (v : Nat) : Half := BitVec.ofNat 16 (v % 2 ^ p.adcBits)

/-- A counter that adds 1 and stays at `0xFFFF_FFFF` (R300, R303). -/
def satInc (c : Word) : Word := if c = 0xFFFFFFFF then c else c + 1

end Sys2Proof.Machine
end

