-- ==== Sys2Proof/Machine/Tables.lean ====
section
/-! DEFINITION. The ROM tables HANN (R240) and TWID (R241). The rules give exact reals; here the cosine is a
Taylor sum on integers scaled by `2^80`, whose error stays below `2^-77`, far under the distance of every
tabulated value of every legal `LOG2_FFT` from a rounding boundary (log 14). -/

namespace Sys2Proof.Machine

/-- `floor(pi * 2^80)`. -/
def piScaled : Nat := 3797952473636338580787993

/-- The tail of the cosine series from term `k` on: `term - (next - (next after that - …))`, each term got from
the one before it by `x^2 / ((2k+1)(2k+2))`; `sq` is `x^2`, and every quantity is scaled by `2^80`. -/
def cosTail (sq : Nat) : Nat → Nat → Nat → Int
  | 0, _, _ => 0
  | fuel + 1, k, term =>
    (term : Int) - cosTail sq fuel (k + 1) (term * sq / (2 ^ 80 * ((2 * k + 1) * (2 * k + 2))))

/-- `2^80 * cos(2*pi*num/den)` for `4*num <= den`: seventeen terms of the series. -/
def cosQuarter (num den : Nat) : Int :=
  let x := 2 * piScaled * num / den
  cosTail (x * x / 2 ^ 80) 17 0 (2 ^ 80)

/-- `2^80 * cos(2*pi*num/den)`, folded into the first quarter turn by `cos(-t) = cos(t)` and
`cos(pi - t) = -cos(t)`. -/
def cosScaled (num den : Nat) : Int :=
  let r := num % den
  let m := min r (den - r)
  if 4 * m ≤ den then cosQuarter m den else -cosQuarter (den - 2 * m) (2 * den)

/-- `2^80 * sin(2*pi*num/den)` for `num <= den/2`, as the cosine of the quarter turn less the angle. -/
def sinScaled (num den : Nat) : Int :=
  cosScaled ((den : Int) - 4 * num).natAbs (4 * den)

/-- `floor(v * c + 1/2)` of a value `c` scaled by `2^80`. -/
def roundScaled (v c : Int) : Int := asr (v * c + 2 ^ 79) 80

/-- `HANN[n]` (R240), by `32768 * h(n) = 16384 * (1 - cos(2*pi*n/(FFT_SIZE-1)))`. -/
def hann (p : Params) (n : Nat) : Int :=
  clamp (roundScaled 16384 (2 ^ 80 - cosScaled n (p.fftSize - 1))) 0 32767

/-- A pair of signed 16-bit lanes: an element `(re, im)` of WORK (R82) or `(C, S)` of TWID (R86). -/
structure Pair where
  re : Half
  im : Half
  deriving DecidableEq, Repr

/-- `TWID[k] = (C[k], S[k])` (R241). -/
def twid (p : Params) (k : Nat) : Pair where
  re := u16 (sat16 (roundScaled 32768 (cosScaled k p.fftSize)))
  im := u16 (sat16 (roundScaled (-32768) (sinScaled k p.fftSize)))

end Sys2Proof.Machine
end

