-- ==== Sys2Proof/Machine/Parts.lean ====
section
/-! DEFINITION. The parts of the state of DSPCORE (10_state.md): the engines' positions, the registers of each
domain, the buffers, the moves of the environment, and the value each part has when its domain leaves reset
(R95, R481). -/

namespace Sys2Proof.Machine

/-- The phases of the sequencer (R63, R326); 4..7 are never read. -/
inductive Phase where
  | idle
  | capturing
  | processing
  | publishing
  deriving DecidableEq, Repr

/-- The field `PHASE` of STATUS_A (R63). -/
def Phase.code : Phase → BitVec 3
  | .idle => 0
  | .capturing => 1
  | .processing => 2
  | .publishing => 3

/-- The error codes of R441. -/
inductive ErrorCode where
  | illegal
  | busy
  | mode
  | range
  | winBusy
  | readOnly
  | seq
  | hazard
  deriving DecidableEq, Repr

/-- The number of an error code (R441). -/
def ErrorCode.code : ErrorCode → BitVec 4
  | .illegal => 1
  | .busy => 2
  | .mode => 3
  | .range => 4
  | .winBusy => 5
  | .readOnly => 6
  | .seq => 7
  | .hazard => 8

/-- An error record, ERR_A or ERR_B (R64, R74). -/
structure ErrorRecord where
  code  : BitVec 4
  multi : Bool
  opc   : BitVec 8
  deriving DecidableEq, Repr

/-- Where the producer engine stands inside its command (R41, R51, R79(c)). Each position but `idle` is one
the engine leaves by the next step of R325; the engine is held there while `WAIT_ADC` or `WAIT_STAGING` is 1. -/
inductive ProducerPos where
  /-- No command executes. -/
  | idle
  /-- Accepted, or between two phases of RUN: the next step is `begin_phase` (R325, R326). -/
  | starting (ph : Phase)
  /-- CAPTURE, with `i` samples stored (R200). -/
  | capture (i : Nat)
  /-- EDGE, before its first sample (R300). -/
  | edgeFirst
  /-- EDGE, with `prev` held and `cnt` samples taken, no trigger yet (R300). -/
  | edgeScan (prev : Half) (cnt : Word)
  /-- EDGE, triggered at sample `cnt`, with `i` samples stored (R300). -/
  | edgeFill (i : Nat) (cnt : Word)
  /-- A PROCESSING phase has begun and its body is to run (R326). -/
  | body
  /-- PUBLISH, at the test of STAGING_FREE (R350). -/
  | publish
  /-- PUBLISH, the staging buffer is free and is to be written (R350). -/
  | publishCopy
  /-- PUBLISH, the frame is written and the token is to be sent (R350). -/
  | publishToggle
  deriving DecidableEq, Repr

/-- Where the consumer engine stands inside POP (R52, R356). -/
inductive ConsumerPos where
  /-- No POP executes. -/
  | idle
  /-- At the test of TOKEN_PENDING; held there while `WAIT_TOKEN` is 1. -/
  | pop
  /-- The token is there and the frame is to be copied. -/
  | popCopy
  /-- The frame is copied and the staging buffer is to be released. -/
  | popRelease
  deriving DecidableEq, Repr

/-- Domain A: the registers of port A, the producer engine and its CDC bits (R60 to R72, R76). -/
structure DomainA where
  ready       : Bool
  busy        : Bool
  running     : Bool
  waitAdc     : Bool
  waitStaging : Bool
  mode        : Mode
  phase       : Phase
  op          : BitVec 8
  err         : ErrorRecord
  filtLen     : BitVec 16
  trigPos     : Word
  frameCnt    : BitVec 16
  pubCnt      : Word
  cycle       : Word
  tsCap       : Word
  tsProcS     : Word
  tsProcE     : Word
  memSel      : BitVec 4
  memIdx      : BitVec 16
  req         : Bool
  ackSync     : Bool
  adcEn       : Bool
  rdata       : Word
  pos         : ProducerPos
  deriving DecidableEq, Repr

/-- Domain B: the registers of port B, the consumer engine and its CDC bits (R73 to R76). -/
structure DomainB where
  ready     : Bool
  busy      : Bool
  waitToken : Bool
  fresh     : Bool
  active    : Bool
  mode      : Mode
  op        : BitVec 8
  err       : ErrorRecord
  popCnt    : Word
  cycle     : Word
  rdSel     : BitVec 2
  rdIdx     : BitVec 16
  ack       : Bool
  reqSync   : Bool
  rdata     : Word
  pos       : ConsumerPos
  deriving DecidableEq, Repr

/-- The buffers, each the list of its elements in index order (R80 to R88, R123; log 21). -/
structure Memory where
  raw     : List Half
  filt    : List Half
  work    : List Pair
  mag     : List Half
  db      : List Half
  staging : List Half
  slot0   : List Half
  slot1   : List Half
  deriving DecidableEq, Repr

/-- The agents that step by themselves (R17), with the clock edges the counters count (R72, R74) and the
reset synchronisers (R43). -/
inductive Agent where
  | producerEngine
  | consumerEngine
  | adcSource
  | reqSynchroniser
  | ackSynchroniser
  | clockA
  | clockB
  | resetSynchroniserA
  | resetSynchroniserB
  deriving DecidableEq, Repr

/-- One move of the environment (U17; log 1). -/
inductive Event where
  /-- A host drives a transaction on its port (R44, R45). -/
  | request (r : Request)
  /-- An agent takes its step. -/
  | agent (g : Agent)
  /-- The ADC source offers one more sample (R47). -/
  | offer (v : Half)
  /-- The input `rst_n` is driven to a level (R43, R480, R481). -/
  | resetPin (level : Bool)
  /-- The input `mode_strap` is driven to a level (R49). -/
  | strap (level : Bool)
  deriving DecidableEq, Repr

/-- The mode a strap level selects (R49). -/
def modeOfStrap : Bool → Mode
  | false => .spectrum
  | true => .oscilloscope

/-- No error recorded (R95). -/
def ErrorRecord.none : ErrorRecord := ⟨0, false, 0⟩

/-- Domain A as it leaves reset with its mode latched (R95, R481). -/
def DomainA.afterReset (m : Mode) : DomainA where
  ready := true
  busy := false
  running := false
  waitAdc := false
  waitStaging := false
  mode := m
  phase := .idle
  op := 0
  err := ErrorRecord.none
  filtLen := 0
  trigPos := 0
  frameCnt := 0
  pubCnt := 0
  cycle := 0
  tsCap := 0
  tsProcS := 0
  tsProcE := 0
  memSel := 0
  memIdx := 0
  req := false
  ackSync := false
  adcEn := false
  rdata := 0
  pos := .idle

/-- Domain B as it leaves reset with its mode latched (R95, R481). -/
def DomainB.afterReset (m : Mode) : DomainB where
  ready := true
  busy := false
  waitToken := false
  fresh := false
  active := false
  mode := m
  op := 0
  err := ErrorRecord.none
  popCnt := 0
  cycle := 0
  rdSel := 0
  rdIdx := 0
  ack := false
  reqSync := false
  rdata := 0
  pos := .idle

/-- `len` unspecified 16-bit elements of a buffer (R95, U13; log 5). -/
def powerOnHalves (draw : Nat) (sp : Space) (len : Nat) : List Half :=
  (List.range len).map fun i => (Config.powerOn draw sp i).setWidth 16

/-- The buffers domain A resets: RAW, FILT, WORK, MAG and DB unspecified, STAGING all 0 (R95). -/
def Memory.resetA (p : Params) (draw : Nat) (m : Memory) : Memory :=
  { m with
    raw := (List.range p.rawbufLen).map fun i => adcBitsOf p (Config.powerOn draw .raw i).toNat
    filt := powerOnHalves draw .filt p.downsampled
    work := (List.range p.fftSize).map fun i =>
      ⟨(Config.powerOn draw .work i).extractLsb' 0 16, (Config.powerOn draw .work i).extractLsb' 16 16⟩
    mag := powerOnHalves draw .mag p.fftSize
    db := powerOnHalves draw .db p.bins
    staging := List.replicate p.slotCap 0 }

/-- The buffers domain B resets: SLOT0 and SLOT1 all 0 (R95). -/
def Memory.resetB (p : Params) (m : Memory) : Memory :=
  { m with slot0 := List.replicate p.slotCap 0, slot1 := List.replicate p.slotCap 0 }

/-- No buffers: what `resetA` and `resetB` fill. -/
def Memory.empty : Memory := ⟨[], [], [], [], [], [], [], []⟩

end Sys2Proof.Machine
end

