-- ==== Sys2Proof/Machine/State.lean ====
section
/-! DEFINITION. The state of DSPCORE (10_state.md), why a step can stop, and the state right after reset
(R95, R481). -/

namespace Sys2Proof.Machine

/-- The machine: the parameters of the instance, the two pins, the two domains, the buffers, and the model's
own fields (the samples offered, the moves to come, whose turn it is, how many free values were drawn). -/
structure State where
  cfg        : Params
  rstN       : Bool
  modeStrap  : Bool
  a          : DomainA
  b          : DomainB
  mem        : Memory
  adcOffered : List Half
  sched      : List Event
  turn       : Agent
  draws      : Nat
  deriving DecidableEq, Repr

/-- Why the machine cannot go on. -/
inductive Fault where
  /-- A parameter set outside the ranges of R12 has no instance (R15, R461). Raised by `build`, by no step.
  Safe: the rule says that the system must not proceed. -/
  | fatalConfiguration
  deriving DecidableEq, Repr

/-- Why a step is refused. -/
inductive Refusal where
  /-- An instruction with no meaning yet. Raised by `exec`'s refused arms only. Safe: nothing can be proved of it. -/
  | notModelled (mnemonic : String)
  /-- A port access of another size than 4 bytes, which R126 says a model refuses by name. Raised by `step`.
  Safe: no such access exists on the ports. -/
  | accessSize (n : Nat)
  deriving DecidableEq, Repr

/-- An instance right after reset, with both domains out of reset (R482 lets a model take both out in one
step; log 4), no sample offered and no move chosen. -/
def State.initial (p : Params) (strap : Bool) : State where
  cfg := p
  rstN := true
  modeStrap := strap
  a := DomainA.afterReset (modeOfStrap strap)
  b := DomainB.afterReset (modeOfStrap strap)
  mem := (Memory.empty.resetA p 0).resetB p
  adcOffered := []
  sched := []
  turn := .producerEngine
  draws := 1

/-- The machine right after reset: the instance of the values of R12, with `mode_strap` at 0 (log 2, log 3). -/
def State.reset : State := State.initial defaultParams false

end Sys2Proof.Machine
end

