-- ==== Sys2Proof/Machine/Flags.lean ====
section
/-! DEFINITION. The status conditions (R63, R73, R77) and the words the read-only registers read (R60, R61,
R63 to R68, R73, R74). The block has no arithmetic flags (R91). -/

namespace Sys2Proof.Machine

/-- One status bit at bit `k`. -/
def bitAt (b : Bool) (k : Nat) : Word := (BitVec.ofBool b).setWidth 32 <<< k

/-- A field whose lowest bit is bit `k`. -/
def fieldAt {w : Nat} (v : BitVec w) (k : Nat) : Word := v.setWidth 32 <<< k

/-- The bit of a mode: 0 SPECTRUM, 1 OSCILLOSCOPE (R14). -/
def modeBit : Mode → Bool
  | .spectrum => false
  | .oscilloscope => true

/-- `STAGING_FREE = (ack_sync_a == req_a)` (R77). -/
def DomainA.stagingFree (a : DomainA) : Bool := a.ackSync == a.req

/-- `TOKEN_PENDING = (req_sync_b != ack_b)` (R77). -/
def DomainB.tokenPending (b : DomainB) : Bool := b.reqSync != b.ack

/-- The output `adc_ready` (R48): 1 exactly while the producer engine is held in `AdcRead()`. -/
def DomainA.adcReady (a : DomainA) : Bool := a.waitAdc

/-- `ERR`: an error is recorded (R63, R73, R444). -/
def ErrorRecord.isError (e : ErrorRecord) : Bool := e.code != 0

/-- The word of ERR_A or ERR_B (R64): CODE 3:0, MULTI 7, OPC 15:8. -/
def ErrorRecord.word (e : ErrorRecord) : Word := fieldAt e.code 0 ||| bitAt e.multi 7 ||| fieldAt e.opc 8

/-- The word of STATUS_A (R63); CFG_ERR, bit 7, is 0 in a built instance (R15). -/
def statusA (a : DomainA) : Word :=
  bitAt a.ready 0 ||| bitAt a.busy 1 ||| bitAt a.running 2 ||| bitAt a.waitAdc 3 ||| bitAt a.waitStaging 4
    ||| bitAt a.stagingFree 5 ||| bitAt a.err.isError 6 ||| bitAt (modeBit a.mode) 8 ||| fieldAt a.phase.code 9
    ||| fieldAt a.op 16

/-- The word of STATUS_B (R73). -/
def statusB (b : DomainB) : Word :=
  bitAt b.ready 0 ||| bitAt b.busy 1 ||| bitAt b.waitToken 2 ||| bitAt b.tokenPending 3 ||| bitAt b.fresh 4
    ||| bitAt b.active 5 ||| bitAt b.err.isError 6 ||| bitAt (modeBit b.mode) 8 ||| fieldAt b.op 16

/-- The constant `ID` (R3, R60). -/
def idWord : Word := 0x44535031

/-- CFG0 (R61). -/
def cfg0 (p : Params) (m : Mode) : Word :=
  fieldAt (BitVec.ofNat 5 p.adcBits) 0 ||| bitAt (modeBit m) 8 ||| fieldAt (BitVec.ofNat 4 p.q15Shift) 12
    ||| fieldAt (BitVec.ofNat 4 p.log2Fft) 16 ||| fieldAt (BitVec.ofNat 4 p.dbEpsExp) 24

/-- CFG1 (R61). -/
def cfg1 (p : Params) : Word := fieldAt (BitVec.ofNat 16 p.rawSamples) 0 ||| fieldAt (BitVec.ofNat 16 p.decimateN) 16

/-- CFG2 (R61). -/
def cfg2 (p : Params) : Word := fieldAt (BitVec.ofNat 16 p.downsampled) 0 ||| fieldAt (BitVec.ofNat 16 p.oscSamples) 16

/-- CFG3 (R61). -/
def cfg3 (p : Params) : Word := fieldAt (BitVec.ofNat 16 p.alphaQ15) 0 ||| fieldAt (BitVec.ofNat 16 p.frameRate) 16

/-- CFG4 (R61). -/
def cfg4 (p : Params) : Word := fieldAt (u16 p.dbMin) 0 ||| fieldAt (u16 p.dbMax) 16

/-- CFG5 (R61). -/
def cfg5 (p : Params) (m : Mode) : Word :=
  fieldAt (BitVec.ofNat 8 p.syncStages) 0 ||| fieldAt (BitVec.ofNat 16 (p.frameLen m)) 16

/-- CFG_B (R73). -/
def cfgB (p : Params) (m : Mode) : Word :=
  fieldAt (BitVec.ofNat 8 p.syncStages) 0 ||| bitAt (modeBit m) 8 ||| fieldAt (BitVec.ofNat 16 (p.frameLen m)) 16

end Sys2Proof.Machine
end

