-- ==== Sys2Proof/Machine/Operands.lean ====
section
/-! DEFINITION. The operand forms of the windows: which buffer a select reaches, its length, whether a host may
write it (R405, R410), and the format of an element on the port (R125, R407, R408, R411). -/

namespace Sys2Proof.Machine

/-- `len(s)` of a `MEM_SEL` value (R405). -/
def windowLen (p : Params) (sel : BitVec 4) : Nat :=
  match sel.toNat with
  | 0 => p.rawbufLen
  | 1 => p.downsampled
  | 2 => p.fftSize
  | 3 => p.fftSize
  | 4 => p.bins
  | 5 => p.fftSize
  | 6 => p.bins
  | 7 => p.slotCap
  | _ => 0

/-- The `MEM_SEL` values a host write is refused for with READ_ONLY (R405): DB, HANN, TWID, STAGING. -/
def windowReadOnly (sel : BitVec 4) : Bool := sel == 4 || sel == 5 || sel == 6 || sel == 7

/-- Element `i` of a list of 16-bit elements. -/
def elem (xs : List Half) (i : Nat) : Half := xs.getD i 0

/-- Element `i` of WORK. -/
def pairElem (xs : List Pair) (i : Nat) : Pair := xs.getD i ⟨0, 0⟩

/-- A frame element on a port (R408 select 7, R411): a dB value sign-extended in SPECTRUM mode, a raw sample
zero-extended in OSCILLOSCOPE mode. -/
def frameWord (m : Mode) (e : Half) : Word :=
  match m with
  | .spectrum => sext32 e
  | .oscilloscope => zext32 e

/-- A pair on a port: the first member in bits 15:0, the second in bits 31:16 (R125). -/
def pairWord (x : Pair) : Word := pack x.im x.re

/-- The element a MEM_DATA read returns (R408). -/
def windowElement (p : Params) (mode : Mode) (m : Memory) (sel : BitVec 4) (i : Nat) : Word :=
  match sel.toNat with
  | 0 => zext32 (elem m.raw i)
  | 1 => sext32 (elem m.filt i)
  | 2 => pairWord (pairElem m.work i)
  | 3 => sext32 (elem m.mag i)
  | 4 => sext32 (elem m.db i)
  | 5 => zext32 (u16 (hann p i))
  | 6 => pairWord (twid p i)
  | 7 => frameWord mode (elem m.staging i)
  | _ => 0

/-- The buffers after a MEM_DATA write of `v` (R407). -/
def windowStore (p : Params) (m : Memory) (sel : BitVec 4) (i : Nat) (v : Word) : Memory :=
  match sel.toNat with
  | 0 => { m with raw := m.raw.set i (adcBitsOf p v.toNat) }
  | 1 => { m with filt := m.filt.set i (v.extractLsb' 0 16) }
  | 2 => { m with work := m.work.set i ⟨v.extractLsb' 0 16, v.extractLsb' 16 16⟩ }
  | 3 => { m with mag := m.mag.set i (v.extractLsb' 0 16) }
  | _ => m

/-- The slot `RD_SEL` selects (R410): `false` is SLOT0, `true` is SLOT1. -/
def slotSelect (active : Bool) (sel : BitVec 2) : Bool :=
  match sel.toNat with
  | 0 => false
  | 1 => true
  | 2 => active
  | _ => !active

/-- `SLOT[n]` (R88). -/
def Memory.slot (m : Memory) : Bool → List Half
  | false => m.slot0
  | true => m.slot1

/-- The buffers with `SLOT[n]` replaced. -/
def Memory.setSlot (m : Memory) (n : Bool) (xs : List Half) : Memory :=
  match n with
  | false => { m with slot0 := xs }
  | true => { m with slot1 := xs }

/-- The bits of element `i` of a space, as one word, or none beyond its length: the model's one way to look at a
single element of any buffer. -/
def Memory.cell (m : Memory) (sp : Space) (i : Nat) : Option Word :=
  match sp with
  | .raw => m.raw[i]?.map zext32
  | .filt => m.filt[i]?.map zext32
  | .work => m.work[i]?.map pairWord
  | .mag => m.mag[i]?.map zext32
  | .db => m.db[i]?.map zext32
  | .staging => m.staging[i]?.map zext32
  | .slot0 => m.slot0[i]?.map zext32
  | .slot1 => m.slot1[i]?.map zext32

/-- The form the buffers keep (R80 to R88, R123): every list has its buffer's length, and every element of RAW
is an `ADC_BITS`-bit value. -/
def Memory.wf (p : Params) (m : Memory) : Bool :=
  m.raw.length == p.rawbufLen && m.raw.all (fun x => decide (x.toNat < 2 ^ p.adcBits))
    && m.filt.length == p.downsampled && m.work.length == p.fftSize && m.mag.length == p.fftSize
    && m.db.length == p.bins && m.staging.length == p.slotCap && m.slot0.length == p.slotCap
    && m.slot1.length == p.slotCap

end Sys2Proof.Machine
end

