-- ==== Sys2Proof/Machine/Ops.lean ====
section
/-! DEFINITION. The shared operations: recording an error and clearing it (R444, R445), answering a read (R44),
the command frame (R325, R326), command acceptance (R446), the windows (R405 to R412), buffer-wide copies. -/

namespace Sys2Proof.Machine

/-! ## Errors: the block's nearest thing to an exception (R440, R449) -/

/-- `raise Error(code, opc)` on an error record (R444): the first error is kept, a later one sets MULTI. -/
def ErrorRecord.record (e : ErrorRecord) (code : ErrorCode) (opc : BitVec 8) : ErrorRecord :=
  if e.code = 0 then { e with code := code.code, opc := opc } else { e with multi := true }

/-- `raise Error(code, opc)` on a port (R444): the error record changes and nothing else does. -/
def State.raise (s : State) (p : Port) (code : ErrorCode) (opc : BitVec 8) : State :=
  match p with
  | .a => { s with a := { s.a with err := s.a.err.record code opc } }
  | .b => { s with b := { s.b with err := s.b.err.record code opc } }

/-- The clear of an error register (R403, R445): the block's nearest thing to a return (R449). -/
def State.clearError (s : State) (p : Port) : State :=
  match p with
  | .a => { s with a := { s.a with err := ErrorRecord.none } }
  | .b => { s with b := { s.b with err := ErrorRecord.none } }

/-! ## Port results -/

/-- A read of port A answers `r` on `a_rdata` (R44; log 7). -/
def State.answerA (s : State) (r : Word) : State := { s with a := { s.a with rdata := r } }

/-- A read of port B answers `r` on `b_rdata` (R45; log 7). -/
def State.answerB (s : State) (r : Word) : State := { s with b := { s.b with rdata := r } }

/-- A read of a diagnostic counter that holds `r`: a draw with no law (R72, U2; log 6). -/
def State.drawDiag (s : State) (r : Word) : Word × State :=
  (Config.diagRead s.draws r, { s with draws := s.draws + 1 })

/-! ## The producer's command frame -/

/-- The opcode of RUN (R163). -/
def opRun : BitVec 8 := 0x0A

/-- The opcode of EDGE (R163). -/
def opEdge : BitVec 8 := 0x08

/-- `begin_phase(p)` (R326). -/
def State.beginPhase (s : State) (ph : Phase) : State :=
  { s with
    a := { s.a with
      phase := ph
      tsCap := if ph = .capturing then s.a.cycle else s.a.tsCap
      tsProcS := if ph = .processing then s.a.cycle else s.a.tsProcS } }

/-- `end_phase(p)` (R326). -/
def State.endPhase (s : State) (ph : Phase) : State :=
  { s with
    a := { s.a with
      phase := .idle
      tsProcE := if ph = .processing then s.a.cycle else s.a.tsProcE } }

/-- The position of the producer engine. -/
def State.setPos (s : State) (pos : ProducerPos) : State := { s with a := { s.a with pos := pos } }

/-- The last step of a command (R325): OP and BUSY cleared together, the engine idle. -/
def State.completeA (s : State) : State :=
  { s with a := { s.a with op := 0, busy := false, pos := .idle } }

/-- The end of a phase's last portion: inside RUN the engine goes on at `next`, else the command completes. -/
def State.finishA (s : State) (next : ProducerPos) : State :=
  if s.a.op = opRun then s.setPos next else s.completeA

/-- Acceptance of a port A command (R325): BUSY and OP at the write itself; the engine starts at `ph`. -/
def State.acceptA (s : State) (op : BitVec 8) (ph : Phase) : State :=
  { s with a := { s.a with busy := true, op := op, pos := .starting ph } }

/-- R446, `issue(A, w)` after the decoding and the test for NOP_A: BUSY, then MODE, then acceptance. A write
while the domain is in reset is ignored (R43, R480). -/
def State.issueA (s : State) (op : BitVec 8) (legal : Mode → Bool) (accepted : State) : State :=
  if !s.a.ready then s
  else if s.a.busy then s.raise .a .busy op
  else if !legal s.a.mode then s.raise .a .mode op
  else accepted

/-- The modes column of R163: SPECTRUM only. -/
def onlySpectrum (m : Mode) : Bool := decide (m = .spectrum)

/-- The modes column of R163: OSCILLOSCOPE only. -/
def onlyOscilloscope (m : Mode) : Bool := decide (m = .oscilloscope)

/-- The modes column of R163: both. -/
def bothModes (_ : Mode) : Bool := true

/-- The start of `AdcRead()` (R23, R63): the engine is held with WAIT_ADC = 1 until the transfer. -/
def State.holdAdc (s : State) : State := { s with a := { s.a with waitAdc := true } }

/-! ## Buffer-wide operations (R278) -/

/-- `dst` with its first `n` elements those of `src`, the rest unchanged. -/
def copyFront (n : Nat) (src dst : List Half) : List Half :=
  dst.mapIdx fun i d => if i < n then elem src i else d

/-! ## The producer memory window -/

/-- `window_check_A(is_write)` (R405): the error a MEM_DATA access raises, if any. -/
def State.windowCheck (s : State) (isWrite : Bool) : Option ErrorCode :=
  if s.a.busy then some .winBusy
  else if windowLen s.cfg s.a.memSel ≤ s.a.memIdx.toNat then some .range
  else if isWrite && windowReadOnly s.a.memSel then some .readOnly
  else none

/-- `MEM_IDX <- (MEM_IDX + 1) mod 2^16` (R406). -/
def State.advanceMemIdx (s : State) : State := { s with a := { s.a with memIdx := s.a.memIdx + 1 } }

/-- The read of MEM_DATA (R408). -/
def State.readMemData (s : State) : State :=
  if !s.a.ready then s.answerA 0
  else
    match s.windowCheck false with
    | some c => (s.raise .a c 0).answerA 0
    | none =>
      s.advanceMemIdx.answerA (windowElement s.cfg s.a.mode s.mem s.a.memSel s.a.memIdx.toNat)

/-- The write of MEM_DATA (R407). -/
def State.writeMemData (s : State) (v : Word) : State :=
  if !s.a.ready then s
  else
    match s.windowCheck true with
    | some c => s.raise .a c 0
    | none => { s.advanceMemIdx with mem := windowStore s.cfg s.mem s.a.memSel s.a.memIdx.toNat v }

/-! ## The consumer read window -/

/-- The checks of an RD_DATA read of slot `n` (R410, R412): HAZARD, then RANGE. -/
def State.readCheck (s : State) (n : Bool) : Option ErrorCode :=
  if s.b.busy && n == !s.b.active then some .hazard
  else if s.cfg.slotCap ≤ s.b.rdIdx.toNat then some .range
  else none

/-- `RD_IDX <- (RD_IDX + 1) mod 2^16` (R410). -/
def State.advanceRdIdx (s : State) : State := { s with b := { s.b with rdIdx := s.b.rdIdx + 1 } }

/-- The read of RD_DATA (R410). -/
def State.readRdData (s : State) : State :=
  if !s.b.ready then s.answerB 0
  else
    let n := slotSelect s.b.active s.b.rdSel
    match s.readCheck n with
    | some c => (s.raise .b c 0).answerB 0
    | none => s.advanceRdIdx.answerB (frameWord s.b.mode (elem (s.mem.slot n) s.b.rdIdx.toNat))

/-! ## Plain register reads (R400) -/

/-- The diagnostic counters of port A by byte offset (R60, R72). -/
def diagRegisterA (a : DomainA) (addr : Nat) : Option Word :=
  match addr with
  | 0x03C => some a.cycle
  | 0x040 => some a.tsCap
  | 0x044 => some a.tsProcS
  | 0x048 => some a.tsProcE
  | _ => none

/-- The other registers of port A by byte offset (R60); a write-only register and an unmapped offset read 0. -/
def registerA (p : Params) (a : DomainA) (addr : Nat) : Word :=
  match addr with
  | 0x000 => idWord
  | 0x004 => cfg0 p a.mode
  | 0x008 => cfg1 p
  | 0x00C => cfg2 p
  | 0x010 => cfg3 p
  | 0x014 => cfg4 p
  | 0x018 => cfg5 p a.mode
  | 0x024 => statusA a
  | 0x028 => a.err.word
  | 0x02C => fieldAt a.filtLen 0
  | 0x030 => a.trigPos
  | 0x034 => fieldAt a.frameCnt 0
  | 0x038 => a.pubCnt
  | 0x050 => fieldAt a.memSel 0
  | 0x054 => fieldAt a.memIdx 0
  | _ => 0

/-- The diagnostic counter of port B by byte offset (R73, R74). -/
def diagRegisterB (b : DomainB) (addr : Nat) : Option Word :=
  match addr with
  | 0x030 => some b.cycle
  | _ => none

/-- The other registers of port B by byte offset (R73); a write-only register and an unmapped offset read 0. -/
def registerB (p : Params) (b : DomainB) (addr : Nat) : Word :=
  match addr with
  | 0x000 => idWord
  | 0x004 => cfgB p b.mode
  | 0x024 => statusB b
  | 0x028 => b.err.word
  | 0x02C => b.popCnt
  | 0x050 => fieldAt b.rdSel 0
  | 0x054 => fieldAt b.rdIdx 0
  | _ => 0

/-- `off = addr[11:2] * 4` (R46, R400). -/
def byteOffset (off : BitVec 10) : Nat := off.toNat * 4

/-- `read(A, addr)` (R400). -/
def State.readRegisterA (s : State) (off : BitVec 10) : State :=
  if !s.a.ready then s.answerA 0
  else if off = offData then s.readMemData
  else
    match diagRegisterA s.a (byteOffset off) with
    | some r => (s.drawDiag r).2.answerA (s.drawDiag r).1
    | none => s.answerA (registerA s.cfg s.a (byteOffset off))

/-- `read(B, addr)` (R400). -/
def State.readRegisterB (s : State) (off : BitVec 10) : State :=
  if !s.b.ready then s.answerB 0
  else if off = offData then s.readRdData
  else
    match diagRegisterB s.b (byteOffset off) with
    | some r => (s.drawDiag r).2.answerB (s.drawDiag r).1
    | none => s.answerB (registerB s.cfg s.b (byteOffset off))

end Sys2Proof.Machine
end

