-- ==== Sys2Proof/Machine/Channel.lean ====
section
/-! DEFINITION. The frame channel (44_frame_channel.md): PUBLISH, POP, SWAP, NOP_B and the two synchronisers. -/

namespace Sys2Proof.Machine

/-- The frame PUBLISH copies (R350, R353): the dB values, or the raw samples. -/
def State.frameSource (s : State) : List Half :=
  match s.a.mode with
  | .spectrum => s.mem.db
  | .oscilloscope => s.mem.raw

/-- PUBLISH at the test of STAGING_FREE (R350, R351). -/
def State.publishTest (s : State) : State :=
  if s.a.stagingFree then s.setPos .publishCopy
  else { s with a := { s.a with waitStaging := true } }

/-- PUBLISH's copy into STAGING (R350). -/
def State.publishCopy (s : State) : State :=
  { s.setPos .publishToggle with
    mem := { s.mem with staging := copyFront (s.cfg.frameLen s.a.mode) s.frameSource s.mem.staging } }

/-- PUBLISH's token and count (R350, R352), and the end of the phase and of the command. -/
def State.publishEnd (s : State) : State :=
  (({ s with a := { s.a with req := !s.a.req, pubCnt := s.a.pubCnt + 1 } }).endPhase .publishing).finishA
    (.starting .capturing)

/-- The position of the consumer engine. -/
def State.setPosB (s : State) (pos : ConsumerPos) : State := { s with b := { s.b with pos := pos } }

/-- POP at the test of TOKEN_PENDING (R356, R357). -/
def State.popTest (s : State) : State :=
  if s.b.tokenPending then s.setPosB .popCopy
  else { s with b := { s.b with waitToken := true } }

/-- POP's copy-in into `SLOT[1-ACTIVE]` (R356, R358). -/
def State.popCopy (s : State) : State :=
  { s.setPosB .popRelease with
    mem := s.mem.setSlot (!s.b.active)
      (copyFront (s.cfg.frameLen s.b.mode) s.mem.staging (s.mem.slot (!s.b.active))) }

/-- POP's last five assignments, one step (R356). -/
def State.popEnd (s : State) : State :=
  { s with
    b := { s.b with
      ack := !s.b.ack, popCnt := s.b.popCnt + 1, fresh := true, op := 0, busy := false, pos := .idle } }

/-- The consumer engine's step (R52, R356); held while WAIT_TOKEN is 1. -/
def consumerStep (s : State) : State :=
  match s.b.pos with
  | .idle => s
  | .pop => if s.b.waitToken then s else s.popTest
  | .popCopy => s.popCopy
  | .popRelease => s.popEnd

/-- The request synchroniser's step (R370), while domain B runs (R482): `req_sync_b <- req_a`. A token that has
arrived ends POP's wait: WAIT_TOKEN is cleared by TOKEN_PENDING becoming 1 (R73; log 9). -/
def reqSyncStep (s : State) : State :=
  if s.b.ready then
    { s with b := { s.b with reqSync := s.a.req, waitToken := s.b.waitToken && s.a.req == s.b.ack } }
  else s

/-- The acknowledge synchroniser's step (R370), while domain A runs: `ack_sync_a <- ack_b`. A release that has
arrived ends PUBLISH's wait: WAIT_STAGING is cleared by STAGING_FREE becoming 1 (R63; log 9). -/
def ackSyncStep (s : State) : State :=
  if s.a.ready then
    { s with a := { s.a with ackSync := s.b.ack, waitStaging := s.a.waitStaging && s.b.ack != s.a.req } }
  else s

/-- A.PUBLISH (R350) at its write: acceptance by R446. -/
def execPublish (s : State) : Host.Outcome State Fault Refusal :=
  .next (s.issueA 0x09 bothModes (s.acceptA 0x09 .publishing))

/-- B.NOP_B (R355): no effect, in every state. -/
def execNopB (s : State) : Host.Outcome State Fault Refusal := .next s

/-- R446, `issue(B, w)` after the decoding and the test for NOP_B: BUSY, then SEQ unless FRESH is as the command
needs it, then the command. A write while the domain is in reset is ignored (R43, R480). -/
def State.issueB (s : State) (op : BitVec 8) (freshNeeded : Bool) (accepted : State) : State :=
  if !s.b.ready then s
  else if s.b.busy then s.raise .b .busy op
  else if s.b.fresh != freshNeeded then s.raise .b .seq op
  else accepted

/-- Acceptance of POP (R356): BUSY and OP at the write itself. -/
def State.acceptPop (s : State) : State :=
  { s with b := { s.b with busy := true, op := 0x01, pos := .pop } }

/-- SWAP_body (R361): one step, at acceptance. -/
def State.swapBody (s : State) : State :=
  { s with b := { s.b with active := !s.b.active, fresh := false } }

/-- B.POP (R356) at its write: acceptance by R446. -/
def execPop (s : State) : Host.Outcome State Fault Refusal := .next (s.issueB 0x01 false s.acceptPop)

/-- B.SWAP (R361): done at its write. -/
def execSwap (s : State) : Host.Outcome State Fault Refusal := .next (s.issueB 0x02 true s.swapBody)

end Sys2Proof.Machine
end

