-- ==== Sys2Proof/Machine/Edge.lean ====
section
/-! DEFINITION. The edge trigger (42_edge_trigger.md): EDGE. -/

namespace Sys2Proof.Machine

/-- The trigger condition `cur > (prev + TRIG_OFFSET) * TRIG_GAIN` on exact unsigned integers (R302). -/
def triggers (prev cur : Half) : Bool := decide ((prev.toNat + trigOffset) * trigGain < cur.toNat)

/-- What EDGE does with the sample that follows `prev`, `cnt` samples having been taken before it (R300): it
counts it, and either has found the trigger sample or slides the pair by one (R301). -/
def edgeNext (prev cur : Half) (cnt : Word) : ProducerPos :=
  if triggers prev cur then .edgeFill 0 (satInc cnt) else .edgeScan cur (satInc cnt)

/-- The end of EDGE_body (R300): TRIG_POS, `adc_en`, and the end of the CAPTURING phase, in the step that
completes the command, since TRIG_POS is written only at completion (R303; log 8). -/
def State.edgeEnd (s : State) (cnt : Word) : State :=
  (({ s with a := { s.a with trigPos := cnt, adcEn := false } }).endPhase .capturing).finishA (.starting .publishing)

/-- A.EDGE (R300) at its write: acceptance by R446. -/
def execEdge (s : State) : Host.Outcome State Fault Refusal :=
  .next (s.issueA 0x08 onlyOscilloscope (s.acceptA 0x08 .capturing))

end Sys2Proof.Machine
end

