-- ==== Sys2Proof/Machine/Filter.lean ====
section
/-! DEFINITION. CAPTURE and FILTER (40_filter.md): what the engine computes, and the meaning of the commands at
their write (R446, R325). -/

namespace Sys2Proof.Machine

/-- Centering (R206). -/
def centre (p : Params) (r : Half) : Int :=
  sat16 (((r.toNat : Int) - p.adcMid) * 2 ^ p.q15Shift)

/-- One output of the one-pole IIR (R207). -/
def iirStep (p : Params) (prev : Int) (r : Half) : Int :=
  sat16 (asr (centre p r * p.alphaQ15 + prev * (32768 - p.alphaQ15)) 15)

/-- The outputs `y` of the IIR over a list of raw samples, one per sample (R207). -/
def iirOutputs (p : Params) : Int → List Half → List Int
  | _, [] => []
  | prev, r :: rs => iirStep p prev r :: iirOutputs p (iirStep p prev r) rs

/-- `L = min(DOWNSAMPLED, floor(RAW_SAMPLES / DECIMATE_N))` (R209). -/
def filterLength (p : Params) : Nat := min p.downsampled (p.rawSamples / p.decimateN)

/-- FILT after FILTER: the last of each group of `DECIMATE_N` outputs (R208), then zeros (R209); `prev` starts
at 0 (R207). -/
def filterBuffer (p : Params) (raw : List Half) : List Half :=
  let y := iirOutputs p 0 (raw.take p.rawSamples)
  (List.range p.downsampled).map fun j =>
    if j < filterLength p then u16 (y.getD (j * p.decimateN + p.decimateN - 1) 0) else 0

/-- FILTER_body (R205). -/
def State.filterBody (s : State) : State :=
  { s with
    mem := { s.mem with filt := filterBuffer s.cfg s.mem.raw }
    a := { s.a with filtLen := BitVec.ofNat 16 (filterLength s.cfg) } }

/-- A.CAPTURE (R200) at its write: acceptance by R446. -/
def execCapture (s : State) : Host.Outcome State Fault Refusal :=
  .next (s.issueA 0x01 onlySpectrum (s.acceptA 0x01 .capturing))

/-- A.FILTER (R205) at its write: acceptance by R446. -/
def execFilter (s : State) : Host.Outcome State Fault Refusal :=
  .next (s.issueA 0x02 onlySpectrum (s.acceptA 0x02 .processing))

end Sys2Proof.Machine
end

