-- ==== Sys2Proof/Machine/Decibel.lean ====
section
/-! DEFINITION. The dB function of R266, exact over the reals. With `E = 10^DB_EPS_EXP`,
`sqrt(2m/8192) + 1/E = (64 + E*sqrt(m)) / (64*E)`, and `20*log10(x) >= k` iff `x^20 >= 10^k`: every comparison
the truncation needs is one between a number `a + b*sqrt(m)` and a natural number (log 15). -/

namespace Sys2Proof.Machine

/-- The number `rat + irr * sqrt(m)`, for an `m` given beside it. -/
structure Surd where
  rat : Nat
  irr : Nat
  deriving DecidableEq, Repr

/-- The product of two such numbers. -/
def surdMul (m : Nat) (x y : Surd) : Surd :=
  ⟨x.rat * y.rat + x.irr * y.irr * m, x.rat * y.irr + x.irr * y.rat⟩

/-- The power of such a number. -/
def surdPow (m : Nat) (x : Surd) : Nat → Surd
  | 0 => ⟨1, 0⟩
  | n + 1 => surdMul m (surdPow m x n) x

/-- `r <= rat + irr * sqrt(m)`. -/
def surdGe (m : Nat) (x : Surd) (r : Nat) : Bool :=
  decide (r ≤ x.rat ∨ (r - x.rat) ^ 2 ≤ x.irr ^ 2 * m)

/-- `rat + irr * sqrt(m) <= r`. -/
def surdLe (m : Nat) (x : Surd) (r : Nat) : Bool :=
  decide (x.rat ≤ r ∧ x.irr ^ 2 * m ≤ (r - x.rat) ^ 2)

/-- The greatest `k <= n` with `q k`, or 0. -/
def greatestUpTo (q : Nat → Bool) : Nat → Nat
  | 0 => 0
  | n + 1 => if q (n + 1) then n + 1 else greatestUpTo q n

/-- `(64 + E*sqrt(m))^20`. -/
def amplitude20 (e m : Nat) : Surd := surdPow m ⟨64, 10 ^ e⟩ 20

/-- `(64*E)^20`. -/
def unit20 (e : Nat) : Nat := (64 * 10 ^ e) ^ 20

/-- `trunc0(20*log10(sqrt(2m/8192) + 10^-e))` for `m` in 0..32767: the floor where the logarithm is not
negative (at most 9), the ceiling where it is (at least `-20*e`) (R266). -/
def decibelTrunc (e m : Nat) : Int :=
  let x := amplitude20 e m
  if surdGe m x (unit20 e) then
    greatestUpTo (fun k => surdGe m x (unit20 e * 10 ^ k)) 20
  else
    -(greatestUpTo (fun k => surdLe m ⟨x.rat * 10 ^ k, x.irr * 10 ^ k⟩ (unit20 e)) (20 * e) : Int)

/-- `dbfun(m)` (R266): a negative `m` counts as 0, and the result is clamped to `[DB_MIN, DB_MAX]`. -/
def dbfun (p : Params) (m : Int) : Int :=
  clamp (decibelTrunc p.dbEpsExp m.toNat) p.dbMin p.dbMax

end Sys2Proof.Machine
end

