-- ==== Sys2Proof/Machine/Spectrum.lean ====
section
/-! DEFINITION. The spectrum engine (41_spectrum.md): WINDOW, FFT, POWER, DBCONV and SPECTRUM. -/

namespace Sys2Proof.Machine

/-- One element of WORK after WINDOW (R245). -/
def windowed (p : Params) (filt : List Half) (n : Nat) : Pair :=
  ⟨u16 (asr (s16 (elem filt n) * hann p n) 15), 0⟩

/-- WORK after WINDOW (R245). -/
def windowBuffer (p : Params) (filt : List Half) : List Pair :=
  (List.range p.fftSize).map (windowed p filt)

/-- The two outputs of a butterfly on `(p, q)` with twiddle `w` (R250, R252). -/
def butterfly (w p q : Pair) : Pair × Pair :=
  let tr := asr (s16 q.re * s16 w.re - s16 q.im * s16 w.im) 15
  let ti := asr (s16 q.re * s16 w.im + s16 q.im * s16 w.re) 15
  (⟨u16 (sat16 (asr (s16 p.re + tr) 1)), u16 (sat16 (asr (s16 p.im + ti) 1))⟩,
   ⟨u16 (sat16 (asr (s16 p.re - tr) 1)), u16 (sat16 (asr (s16 p.im - ti) 1))⟩)

/-- The butterfly of group offset `g`, index `t`, half size `h`, in place (R250). -/
def butterflyAt (prm : Params) (m g h t : Nat) (work : List Pair) : List Pair :=
  let o := butterfly (twid prm (t * (prm.fftSize / m))) (pairElem work (g + t)) (pairElem work (g + t + h))
  (work.set (g + t) o.1).set (g + t + h) o.2

/-- One stage, for one `m` (R250): every group, every `t`. -/
def fftStage (prm : Params) (work : List Pair) (m : Nat) : List Pair :=
  (List.range (prm.fftSize / m)).foldl
    (fun w k => (List.range (m / 2)).foldl (fun w' t => butterflyAt prm m (k * m) (m / 2) t w') w) work

/-- `WORK[bitrev_B(n)] <- a[n]` for every `n` (R250, R251). -/
def bitrevBuffer (prm : Params) (work : List Pair) : List Pair :=
  (List.range prm.fftSize).foldl (fun w n => w.set (bitrev prm.log2Fft n) (pairElem work n)) work

/-- WORK after FFT (R250): the bit reversal, then the stages `m = 2, 4, …, FFT_SIZE`. -/
def fftBuffer (prm : Params) (work : List Pair) : List Pair :=
  (List.range prm.log2Fft).foldl (fun w k => fftStage prm w (2 ^ (k + 1))) (bitrevBuffer prm work)

/-- One element of MAG after POWER (R260). -/
def power (x : Pair) : Int := sat16 (asr (s16 x.re * s16 x.re + s16 x.im * s16 x.im) 13)

/-- MAG after POWER (R260). -/
def powerBuffer (prm : Params) (work : List Pair) : List Half :=
  (List.range prm.fftSize).map fun k => u16 (power (pairElem work k))

/-- DB after DBCONV (R265). -/
def dbBuffer (prm : Params) (mag : List Half) : List Half :=
  (List.range prm.bins).map fun k => u16 (dbfun prm (s16 (elem mag k)))

/-- WINDOW_body (R245). -/
def State.windowBody (s : State) : State :=
  { s with mem := { s.mem with work := windowBuffer s.cfg s.mem.filt } }

/-- FFT_body (R250). -/
def State.fftBody (s : State) : State :=
  { s with mem := { s.mem with work := fftBuffer s.cfg s.mem.work } }

/-- POWER_body (R260). -/
def State.powerBody (s : State) : State :=
  { s with mem := { s.mem with mag := powerBuffer s.cfg s.mem.work } }

/-- DBCONV_body (R265). -/
def State.dbconvBody (s : State) : State :=
  { s with mem := { s.mem with db := dbBuffer s.cfg s.mem.mag } }

/-- SPECTRUM_body (R275). -/
def State.spectrumBody (s : State) : State := s.windowBody.fftBody.powerBody.dbconvBody

/-- A.WINDOW (R245) at its write: acceptance by R446. -/
def execWindow (s : State) : Host.Outcome State Fault Refusal :=
  .next (s.issueA 0x03 onlySpectrum (s.acceptA 0x03 .processing))

/-- A.FFT (R250) at its write: acceptance by R446. -/
def execFft (s : State) : Host.Outcome State Fault Refusal :=
  .next (s.issueA 0x04 onlySpectrum (s.acceptA 0x04 .processing))

/-- A.POWER (R260) at its write: acceptance by R446. -/
def execPower (s : State) : Host.Outcome State Fault Refusal :=
  .next (s.issueA 0x05 onlySpectrum (s.acceptA 0x05 .processing))

/-- A.DBCONV (R265) at its write: acceptance by R446. -/
def execDbconv (s : State) : Host.Outcome State Fault Refusal :=
  .next (s.issueA 0x06 onlySpectrum (s.acceptA 0x06 .processing))

/-- A.SPECTRUM (R275) at its write: acceptance by R446. -/
def execSpectrum (s : State) : Host.Outcome State Fault Refusal :=
  .next (s.issueA 0x07 onlySpectrum (s.acceptA 0x07 .processing))

end Sys2Proof.Machine
end

