-- ==== Sys2Proof/Machine/Sequencer.lean ====
section
/-! DEFINITION. The acquisition sequencer (43_sequencer.md): NOP_A, RUN, the producer engine's step through the
command frame (R325) and RUN's cycle (R322), and the ADC transfer. -/

namespace Sys2Proof.Machine

/-- A.NOP_A (R320): no effect, in every state. -/
def execNopA (s : State) : Host.Outcome State Fault Refusal := .next s

/-- Acceptance of RUN (R325): RUNNING beside BUSY and OP; its first phase is CAPTURING in both modes (R322). -/
def State.acceptRun (s : State) : State :=
  { s.acceptA opRun .capturing with a := { (s.acceptA opRun .capturing).a with running := true } }

/-- A.RUN (R321) at its write: acceptance by R446; legal in both modes. -/
def execRun (s : State) : Host.Outcome State Fault Refusal :=
  .next (s.issueA opRun bothModes s.acceptRun)

/-- The frame-rate divider (R323): the next value of FRAME_CNT. -/
def nextFrameCnt (p : Params) (c : BitVec 16) : BitVec 16 := BitVec.ofNat 16 ((c.toNat + 1) % p.frameRate)

/-- Where RUN goes after a CAPTURE in SPECTRUM mode (R322, R323): it counts the capture, and processes it when
the count is 0, else captures again (R324). -/
def State.divide (s : State) : State :=
  let c := nextFrameCnt s.cfg s.a.frameCnt
  ({ s with a := { s.a with frameCnt := c } }).setPos (.starting (if c = 0 then .processing else .capturing))

/-- The end of CAPTURE_body (R200): `adc_en`, the end of the CAPTURING phase, then completion, or RUN's divider. -/
def State.captureEnd (s : State) : State :=
  let t := ({ s with a := { s.a with adcEn := false } }).endPhase .capturing
  if t.a.op = opRun then t.divide else t.completeA

/-- Whether a CAPTURING phase is EDGE's: the command EDGE, or RUN in OSCILLOSCOPE mode (R322, R326). -/
def DomainA.capturesEdge (a : DomainA) : Bool :=
  a.op == opEdge || (a.op == opRun && decide (a.mode = .oscilloscope))

/-- `begin_phase` and what follows it up to the first interaction (R325, R326): `adc_en <- 1` for CAPTURE and
EDGE (R48). -/
def State.startPhase (s : State) (ph : Phase) : State :=
  match ph with
  | .capturing =>
    let t := s.beginPhase .capturing
    ({ t with a := { t.a with adcEn := true } }).setPos (if s.a.capturesEdge then .edgeFirst else .capture 0)
  | .processing => (s.beginPhase .processing).setPos .body
  | .publishing => (s.beginPhase .publishing).setPos .publish
  | .idle => s

/-- The body of a PROCESSING phase by opcode (R322, R325, R326). -/
def State.processBody (s : State) : State :=
  match s.a.op.toNat with
  | 0x02 => s.filterBody
  | 0x03 => s.windowBody
  | 0x04 => s.fftBody
  | 0x05 => s.powerBody
  | 0x06 => s.dbconvBody
  | 0x07 => s.spectrumBody
  | 0x0A => s.filterBody.spectrumBody
  | _ => s

/-- A PROCESSING phase from its body to its end: one step, there being no interaction in it (R16; log 8). -/
def State.processEnd (s : State) : State :=
  (s.processBody.endPhase .processing).finishA (.starting .publishing)

/-- The producer engine's step (R325): from its position to the next interaction; held while WAIT_ADC or
WAIT_STAGING is 1 (R51). -/
def producerStep (s : State) : State :=
  match s.a.pos with
  | .idle => s
  | .starting ph => s.startPhase ph
  | .capture i =>
    if s.a.waitAdc then s else if i < s.cfg.rawSamples then s.holdAdc else s.captureEnd
  | .edgeFirst => if s.a.waitAdc then s else s.holdAdc
  | .edgeScan _ _ => if s.a.waitAdc then s else s.holdAdc
  | .edgeFill i cnt =>
    if s.a.waitAdc then s else if i < s.cfg.oscSamples then s.holdAdc else s.edgeEnd cnt
  | .body => s.processEnd
  | .publish => if s.a.waitStaging then s else s.publishTest
  | .publishCopy => s.publishCopy
  | .publishToggle => s.publishEnd

/-- RAW with element `i` set (R200, R300). -/
def State.storeRaw (s : State) (i : Nat) (v : Half) : State :=
  { s with mem := { s.mem with raw := s.mem.raw.set i v } }

/-- What the engine does with the sample `AdcRead()` returns (R200, R201, R300, R304). -/
def State.takeSample (s : State) (v : Half) : State :=
  match s.a.pos with
  | .capture i => (s.storeRaw i v).setPos (.capture (i + 1))
  | .edgeFirst => s.setPos (.edgeScan v 1)
  | .edgeScan prev cnt => s.setPos (edgeNext prev v cnt)
  | .edgeFill i cnt => (s.storeRaw i v).setPos (.edgeFill (i + 1) cnt)
  | _ => s

/-- One sample transfer (R47): it happens when a sample is offered and `adc_ready` is 1, and it ends the hold
(R63); the value is the low `ADC_BITS` bits offered (log 16). -/
def adcTransfer (s : State) : State :=
  match s.adcOffered with
  | [] => s
  | v :: vs =>
    if s.a.adcReady then
      State.takeSample
        { s with adcOffered := vs, a := { s.a with waitAdc := false } } (adcBitsOf s.cfg v.toNat)
    else s

end Sys2Proof.Machine
end

