-- ==== Sys2Proof/Machine/Agents.lean ====
section
/-! DEFINITION. The agents' steps (R17), the clocks (R72, R74), the pins and reset (R43, R480 to R485), and the
transaction that withFetchWord places. -/

namespace Sys2Proof.Machine

/-- An edge of `clk_a` after domain A has left reset (R72). -/
def clockStepA (s : State) : State :=
  if s.a.ready then { s with a := { s.a with cycle := s.a.cycle + 1 } } else s

/-- An edge of `clk_b` after domain B has left reset (R74). -/
def clockStepB (s : State) : State :=
  if s.b.ready then { s with b := { s.b with cycle := s.b.cycle + 1 } } else s

/-- Domain A leaves reset once `rst_n` is 1 (R481): every piece of its state takes the value of R95, the
unspecified buffers new free values (log 5), and the mode is latched. -/
def leaveResetA (s : State) : State :=
  if s.rstN && !s.a.ready then
    { s with
      a := DomainA.afterReset (modeOfStrap s.modeStrap)
      mem := s.mem.resetA s.cfg s.draws
      draws := s.draws + 1 }
  else s

/-- Domain B leaves reset once `rst_n` is 1 (R481). -/
def leaveResetB (s : State) : State :=
  if s.rstN && !s.b.ready then
    { s with b := DomainB.afterReset (modeOfStrap s.modeStrap), mem := s.mem.resetB s.cfg }
  else s

/-- `rst_n` driven to a level (R480): at 0 both domains are in reset at once, whatever they were doing (R485);
at 1 each leaves by its own reset synchroniser (R481). -/
def resetPin (level : Bool) (s : State) : State :=
  match level with
  | true => { s with rstN := true }
  | false =>
    { s with
      rstN := false
      a := { DomainA.afterReset s.a.mode with ready := false }
      b := { DomainB.afterReset s.b.mode with ready := false } }

/-- The step of an agent; where its step is not enabled, nothing changes. -/
def agentStep (g : Agent) (s : State) : State :=
  match g with
  | .producerEngine => producerStep s
  | .consumerEngine => consumerStep s
  | .adcSource => adcTransfer s
  | .reqSynchroniser => reqSyncStep s
  | .ackSynchroniser => ackSyncStep s
  | .clockA => clockStepA s
  | .clockB => clockStepB s
  | .resetSynchroniserA => leaveResetA s
  | .resetSynchroniserB => leaveResetB s

/-- Whose turn follows, when the environment chooses no move (log 1). -/
def nextTurn : Agent → Agent
  | .producerEngine => .consumerEngine
  | .consumerEngine => .adcSource
  | .adcSource => .reqSynchroniser
  | .reqSynchroniser => .ackSynchroniser
  | .ackSynchroniser => .clockA
  | .clockA => .clockB
  | .clockB => .resetSynchroniserA
  | .resetSynchroniserA => .resetSynchroniserB
  | .resetSynchroniserB => .producerEngine

/-- A write of a command word to CMD_A (R160). -/
def commandRequestA (w : Word) : Request := ⟨.a, true, 0x020, 4, w⟩

/-- A transaction of port A from its transaction word, with data 0 (R171). -/
def tableRequestA (tw : BitVec 13) : Request := ⟨.a, tw.getLsbD 12, tw.extractLsb' 0 12, 4, 0⟩

/-- The transaction that stands for an opcode-table word: a row of at most 16 bits is a transaction word of port
A, any other a command word written to CMD_A (log 11). -/
def tableRequest (nbits w : Nat) : Request :=
  if nbits ≤ 16 then tableRequestA (BitVec.ofNat 13 w) else commandRequestA (BitVec.ofNat 32 w)

end Sys2Proof.Machine
end

