-- ==== Sys2Proof/Machine/Access.lean ====
section
/-! DEFINITION. The port transactions (45_register_access.md) and the command issue by a write of CMD_A or CMD_B
(R160, R446). -/

namespace Sys2Proof.Machine

/-- A.read_MEM_DATA (R408). -/
def execReadMemData (s : State) : Host.Outcome State Fault Refusal := .next s.readMemData

/-- A.write_MEM_DATA (R407). -/
def execWriteMemData (v : Word) (s : State) : Host.Outcome State Fault Refusal := .next (s.writeMemData v)

/-- A word the port's decoder calls ILLEGAL (R165, R166, R446): error ILLEGAL with its bits 7:0; ignored while
the domain is in reset. -/
def State.issueIllegal (s : State) (p : Port) (w : Word) : State :=
  match p with
  | .a => if s.a.ready then s.raise .a .illegal (opcField w) else s
  | .b => if s.b.ready then s.raise .b .illegal (opcField w) else s

/-- A.write_CMD_A: `issue(A, w)` (R160, R446), each legal word being the command of R163. -/
def execWriteCmdA (w : Word) (s : State) : Host.Outcome State Fault Refusal :=
  match w.toNat with
  | 0x00 => execNopA s
  | 0x01 => execCapture s
  | 0x02 => execFilter s
  | 0x03 => execWindow s
  | 0x04 => execFft s
  | 0x05 => execPower s
  | 0x06 => execDbconv s
  | 0x07 => execSpectrum s
  | 0x08 => execEdge s
  | 0x09 => execPublish s
  | 0x0A => execRun s
  | _ => .next (s.issueIllegal .a w)

/-- A.write_ERR_A (R403): the clear; ignored while the domain is in reset. -/
def execWriteErrA (_ : Word) (s : State) : Host.Outcome State Fault Refusal :=
  .next (if s.a.ready then s.clearError .a else s)

/-- A.write_MEM_SEL (R401). -/
def execWriteMemSel (v : Word) (s : State) : Host.Outcome State Fault Refusal :=
  .next (if s.a.ready then { s with a := { s.a with memSel := v.extractLsb' 0 4 } } else s)

/-- A.write_MEM_IDX (R401). -/
def execWriteMemIdx (v : Word) (s : State) : Host.Outcome State Fault Refusal :=
  .next (if s.a.ready then { s with a := { s.a with memIdx := v.extractLsb' 0 16 } } else s)

/-- A.read of any other offset (R400). -/
def execReadOtherA (off : BitVec 10) (s : State) : Host.Outcome State Fault Refusal :=
  .next (s.readRegisterA off)

/-- A.write of any other offset: it stores nothing and records no error (R402). -/
def execWriteOtherA (_ : BitVec 10) (_ : Word) (s : State) : Host.Outcome State Fault Refusal := .next s

/-- B.read_RD_DATA (R410). -/
def execReadRdData (s : State) : Host.Outcome State Fault Refusal := .next s.readRdData

/-- B.write_CMD_B: `issue(B, w)` (R160, R446), each legal word being the command of R164. -/
def execWriteCmdB (w : Word) (s : State) : Host.Outcome State Fault Refusal :=
  match w.toNat with
  | 0x00 => execNopB s
  | 0x01 => execPop s
  | 0x02 => execSwap s
  | _ => .next (s.issueIllegal .b w)

/-- B.write_ERR_B (R403): the clear; ignored while the domain is in reset. -/
def execWriteErrB (_ : Word) (s : State) : Host.Outcome State Fault Refusal :=
  .next (if s.b.ready then s.clearError .b else s)

/-- B.write_RD_SEL (R413). -/
def execWriteRdSel (v : Word) (s : State) : Host.Outcome State Fault Refusal :=
  .next (if s.b.ready then { s with b := { s.b with rdSel := v.extractLsb' 0 2 } } else s)

/-- B.write_RD_IDX (R413). -/
def execWriteRdIdx (v : Word) (s : State) : Host.Outcome State Fault Refusal :=
  .next (if s.b.ready then { s with b := { s.b with rdIdx := v.extractLsb' 0 16 } } else s)

/-- B.read of any other offset (R400). -/
def execReadOtherB (off : BitVec 10) (s : State) : Host.Outcome State Fault Refusal :=
  .next (s.readRegisterB off)

/-- B.write of any other offset, RD_DATA among them: it stores nothing and records no error (R402, R414). -/
def execWriteOtherB (_ : BitVec 10) (_ : Word) (s : State) : Host.Outcome State Fault Refusal := .next s

end Sys2Proof.Machine
end

