-- ==== Sys2Proof/Machine/Dispatch.lean ====
section
/-! DEFINITION. One arm per instruction, each a call of the instruction's meaning. -/

namespace Sys2Proof.Machine

def exec (i : Instr) (s : State) : Host.Outcome State Fault Refusal :=
  match i with
  | .aNopA => Sys2Proof.Machine.execNopA s
  | .aCapture => Sys2Proof.Machine.execCapture s
  | .aFilter => Sys2Proof.Machine.execFilter s
  | .aWindow => Sys2Proof.Machine.execWindow s
  | .aFft => Sys2Proof.Machine.execFft s
  | .aPower => Sys2Proof.Machine.execPower s
  | .aDbconv => Sys2Proof.Machine.execDbconv s
  | .aSpectrum => Sys2Proof.Machine.execSpectrum s
  | .aEdge => Sys2Proof.Machine.execEdge s
  | .aPublish => Sys2Proof.Machine.execPublish s
  | .aRun => Sys2Proof.Machine.execRun s
  | .bNopB => Sys2Proof.Machine.execNopB s
  | .bPop => Sys2Proof.Machine.execPop s
  | .bSwap => Sys2Proof.Machine.execSwap s
  | .aReadMemData => Sys2Proof.Machine.execReadMemData s
  | .aWriteMemData v => Sys2Proof.Machine.execWriteMemData v s
  | .aWriteCmdA v => Sys2Proof.Machine.execWriteCmdA v s
  | .aWriteErrA v => Sys2Proof.Machine.execWriteErrA v s
  | .aWriteMemSel v => Sys2Proof.Machine.execWriteMemSel v s
  | .aWriteMemIdx v => Sys2Proof.Machine.execWriteMemIdx v s
  | .aReadOther off => Sys2Proof.Machine.execReadOtherA off s
  | .aWriteOther off v => Sys2Proof.Machine.execWriteOtherA off v s
  | .bReadRdData => Sys2Proof.Machine.execReadRdData s
  | .bWriteCmdB v => Sys2Proof.Machine.execWriteCmdB v s
  | .bWriteErrB v => Sys2Proof.Machine.execWriteErrB v s
  | .bWriteRdSel v => Sys2Proof.Machine.execWriteRdSel v s
  | .bWriteRdIdx v => Sys2Proof.Machine.execWriteRdIdx v s
  | .bReadOther off => Sys2Proof.Machine.execReadOtherB off s
  | .bWriteOther off v => Sys2Proof.Machine.execWriteOtherB off v s

end Sys2Proof.Machine
end

