-- ==== Sys2Proof/Machine/Run.lean ====
section
/-! DEFINITION. What one move of the environment does, and how an instance is built (R15, R461). -/

namespace Sys2Proof.Machine

/-- Building an instance (R15, R461): no initial state exists for a parameter set that violates a range. -/
def build (q : ParamSet) (strap : Bool) : Except Fault State :=
  if q.valid then .ok (State.initial q.params strap) else .error .fatalConfiguration

/-- A transaction takes effect whole (R128, R140): the decoded instruction's meaning, or a refusal by name of an
access size the ports do not have (R126). -/
def runRequest (r : Request) (s : State) : Host.Outcome State Fault Refusal :=
  match decodeRequest r with
  | .ok i => exec i s
  | .error _ => .refused (.accessSize r.size)

/-- One move. -/
def runEvent (e : Event) (s : State) : Host.Outcome State Fault Refusal :=
  match e with
  | .request r => runRequest r s
  | .agent g => .next (agentStep g s)
  | .offer v => .next { s with adcOffered := s.adcOffered ++ [v] }
  | .resetPin level => .next (resetPin level s)
  | .strap level => .next { s with modeStrap := level }

end Sys2Proof.Machine
end

