-- ==== Sys2Proof/Machine/Step.lean ====
section
/-! DEFINITION. One step of the machine: the next move of the schedule, or, when the environment has chosen
none, the step of the agent whose turn it is (R145, R506; log 1). -/

namespace Sys2Proof.Machine

/-- One step. -/
def step (s : State) : Host.Outcome State Fault Refusal :=
  match s.sched with
  | [] => .next (agentStep s.turn { s with turn := nextTurn s.turn })
  | e :: es => runEvent e { s with sched := es }

/-- The state with the transaction of an opcode-table word as the next move (log 11, log 12). -/
def State.withFetchWord (s : State) (nbits w : Nat) : State :=
  { s with sched := .request (tableRequest nbits w) :: s.sched }

end Sys2Proof.Machine
end

