-- ==== Sys2Proof/Safety.lean ====
section
/-! DEFINITION. What counts as a safe state (the invariants statements use), and the short runs statements speak
of: rounds of samples, engine steps in a row, a request on a port. -/

namespace Sys2Proof.Machine

/-! ## The handshake of R371 -/

/-- The four phases of R371. -/
inductive HandshakePhase where
  /-- (a): all four bits equal. -/
  | idle
  /-- (b): the token is on its way to domain B. -/
  | tokenInFlight
  /-- (c): the token is pending in domain B. -/
  | tokenPending
  /-- (d): the release is on its way to domain A. -/
  | releaseInFlight
  deriving DecidableEq, Repr

/-- The phase of the four bits (R371), none where they are in no phase of the table. -/
def State.handshake (s : State) : Option HandshakePhase :=
  if s.a.req = s.b.reqSync then
    if s.b.reqSync = s.b.ack then
      if s.b.ack = s.a.ackSync then some .idle else some .releaseInFlight
    else if s.b.ack = s.a.ackSync then some .tokenPending
    else none
  else if s.b.reqSync = s.b.ack ∧ s.b.ack = s.a.ackSync then some .tokenInFlight
  else none

/-- Whether a frame is published and not yet popped: the phases (b) and (c) (R374). -/
def State.frameOutstanding (s : State) : Bool := s.a.req != s.b.ack

/-! ## The engines (R51, R52, R63, R73) -/

/-- The commands a CAPTURE position belongs to: CAPTURE, or RUN, in SPECTRUM mode. -/
def DomainA.inCapture (a : DomainA) : Bool :=
  (a.op == 0x01 || a.op == opRun) && decide (a.mode = .spectrum)

/-- The commands an EDGE position belongs to: EDGE, or RUN, in OSCILLOSCOPE mode. -/
def DomainA.inEdge (a : DomainA) : Bool :=
  (a.op == opEdge || a.op == opRun) && decide (a.mode = .oscilloscope)

/-- The commands a PROCESSING position belongs to: FILTER to SPECTRUM, or RUN, in SPECTRUM mode. -/
def DomainA.inProcessing (a : DomainA) : Bool :=
  ((decide (2 ≤ a.op.toNat) && decide (a.op.toNat ≤ 7)) || a.op == opRun) && decide (a.mode = .spectrum)

/-- The commands a PUBLISHING position belongs to: PUBLISH, or RUN, in both modes. -/
def DomainA.inPublish (a : DomainA) : Bool := a.op == 0x09 || a.op == opRun

/-- The status bits of an engine that is at work and held by nothing: BUSY, the phase, `adc_en`. -/
def DomainA.atWork (a : DomainA) (ph : Phase) (adcEn : Bool) : Bool :=
  a.busy && decide (a.phase = ph) && a.adcEn == adcEn

/-- The status of domain A agrees with the engine's position (R51, R63, R326): at most one of WAIT_ADC and
WAIT_STAGING, each only where the engine is held for it, OP and PHASE those of the command and phase. -/
def DomainA.engineOk (p : Params) (a : DomainA) : Bool :=
  match a.pos with
  | .idle => !a.busy && a.op == 0 && decide (a.phase = .idle) && !a.adcEn && !a.waitAdc && !a.waitStaging
  | .starting ph =>
    a.atWork .idle false && !a.waitAdc && !a.waitStaging &&
      (match ph with
      | .capturing => a.inCapture || a.inEdge
      | .processing => a.inProcessing
      | .publishing => a.inPublish
      | .idle => false)
  | .capture i =>
    a.atWork .capturing true && a.inCapture && !a.waitStaging
      && decide (i ≤ p.rawSamples) && (!a.waitAdc || decide (i < p.rawSamples))
  | .edgeFirst => a.atWork .capturing true && a.inEdge && !a.waitStaging
  | .edgeScan _ _ => a.atWork .capturing true && a.inEdge && !a.waitStaging
  | .edgeFill i _ =>
    a.atWork .capturing true && a.inEdge && !a.waitStaging
      && decide (i ≤ p.oscSamples) && (!a.waitAdc || decide (i < p.oscSamples))
  | .body => a.atWork .processing false && a.inProcessing && !a.waitAdc && !a.waitStaging
  | .publish => a.atWork .publishing false && a.inPublish && !a.waitAdc && (!a.waitStaging || !a.stagingFree)
  | .publishCopy => a.atWork .publishing false && a.inPublish && !a.waitAdc && !a.waitStaging && a.stagingFree
  | .publishToggle => a.atWork .publishing false && a.inPublish && !a.waitAdc && !a.waitStaging && a.stagingFree

/-- RUNNING is RUN's (R63): it is 1 exactly while OP is RUN's. -/
def DomainA.runningOk (a : DomainA) : Bool := a.running == (a.op == opRun)

/-- The status of domain B agrees with the engine's position (R52, R73, R356): a POP executes only while FRESH
is 0, it is held only while no token is pending, and it copies only while one is. -/
def DomainB.engineOk (b : DomainB) : Bool :=
  match b.pos with
  | .idle => !b.busy && b.op == 0 && !b.waitToken
  | .pop => b.busy && b.op == 0x01 && !b.fresh && (!b.waitToken || !b.tokenPending)
  | .popCopy => b.busy && b.op == 0x01 && !b.fresh && !b.waitToken && b.tokenPending
  | .popRelease => b.busy && b.op == 0x01 && !b.fresh && !b.waitToken && b.tokenPending

/-- A domain in reset holds the values of R95 but for READY (R43, R480), no domain runs while `rst_n` is 0, and
no token has crossed while a domain is still in reset (R482). -/
def State.resetOk (s : State) : Bool :=
  (s.rstN || (!s.a.ready && !s.b.ready))
    && (s.a.ready || decide (s.a = { DomainA.afterReset s.a.mode with ready := false }))
    && (s.b.ready || decide (s.b = { DomainB.afterReset s.b.mode with ready := false }))
    && ((s.a.ready && s.b.ready) || (!s.b.reqSync && !s.b.ack && !s.a.ackSync && s.b.popCnt == 0))

/-- The invariant of the engines and the handshake: each engine's status agrees with its position, the four bits
are in a phase of R371, and the counters differ by the frame outstanding (R374). -/
def State.engineInv (s : State) : Bool :=
  s.a.engineOk s.cfg && s.a.runningOk && s.b.engineOk && s.handshake.isSome && s.resetOk
    && s.a.pubCnt == s.b.popCnt + (if s.frameOutstanding then 1 else 0)

/-! ## The error records, the divider, the frame tails -/

/-- The codes port A can record (R441), with MULTI and OPC 0 while none is. -/
def DomainA.errorOk (a : DomainA) : Bool :=
  decide (a.err.code.toNat ≤ 6) && (a.err.code != 0 || (!a.err.multi && a.err.opc == 0))

/-- The codes port B can record (R441), with MULTI and OPC 0 while none is. -/
def DomainB.errorOk (b : DomainB) : Bool :=
  (b.err.code == 0 || b.err.code == 1 || b.err.code == 2 || b.err.code == 4 || b.err.code == 7 || b.err.code == 8)
    && (b.err.code != 0 || (!b.err.multi && b.err.opc == 0))

/-- FRAME_CNT is a value in `0 .. FRAME_RATE-1` (R67). -/
def State.frameCntOk (s : State) : Bool := decide (s.a.frameCnt.toNat < s.cfg.frameRate)

/-- Every element of a list from index `n` on is 0. -/
def zeroFrom (n : Nat) (xs : List Half) : Bool := (xs.drop n).all (· == 0)

/-- The elements of STAGING and of the slots at `FRAME_LEN` and above are 0 while their domain is out of reset:
never written after reset (R87, R353, R358). -/
def State.tailsZero (s : State) : Bool :=
  (!s.a.ready || zeroFrom (s.cfg.frameLen s.a.mode) s.mem.staging)
    && (!s.b.ready || (zeroFrom (s.cfg.frameLen s.b.mode) s.mem.slot0 && zeroFrom (s.cfg.frameLen s.b.mode) s.mem.slot1))

/-! ## Short runs -/

/-- The producer engine takes `n` steps in a row. -/
def producerSteps : Nat → State → State
  | 0, s => s
  | n + 1, s => producerSteps n (producerStep s)

/-- The consumer engine takes `n` steps in a row. -/
def consumerSteps : Nat → State → State
  | 0, s => s
  | n + 1, s => consumerSteps n (consumerStep s)

/-- The producer engine, taking its own steps, completes the command it stands in, in the state `t`. -/
def producerCompletes (s t : State) : Prop := t.a.busy = false ∧ ∃ n, producerSteps n s = t

/-- The consumer engine, taking its own steps, completes the POP it stands in, in the state `t`. -/
def consumerCompletes (s t : State) : Prop := t.b.busy = false ∧ ∃ n, consumerSteps n s = t

/-- `n` rounds of a sampling loop: the engine asks for a sample, the ADC source transfers one. -/
def sampleRounds : Nat → State → State
  | 0, s => s
  | n + 1, s => sampleRounds n (adcTransfer (producerStep s))

/-- The agent whose step is the next move, none where it is a transaction, an offer or a pin (log 1). -/
def State.mover (s : State) : Option Agent :=
  match s.sched with
  | [] => some s.turn
  | .agent g :: _ => some g
  | _ => none

/-- The moves of a sampling loop, in any order: the producer engine's steps, the ADC source's transfers, and
samples it comes to offer. -/
def isSampling : Event → Bool
  | .agent .producerEngine | .agent .adcSource | .offer _ => true
  | _ => false

/-- The samples a list of moves offers, in order. -/
def samplesOffered (es : List Event) : List Half :=
  es.filterMap fun e =>
    match e with
    | .offer v => some v
    | _ => none

/-- Sample `k` is the first trigger sample of a stream (R301, R302): above ten times its predecessor plus 3, and no
earlier sample that has a predecessor is. -/
def firstTrigger (xs : List Half) (k : Nat) : Prop :=
  1 ≤ k ∧ ((xs.getD (k - 1) 0).toNat + 3) * 10 < (xs.getD k 0).toNat
    ∧ ∀ j, 1 ≤ j → j < k → (xs.getD j 0).toNat ≤ ((xs.getD (j - 1) 0).toNat + 3) * 10

/-- Domain A with its producer engine idle and all else as it is (R325: OP, BUSY; R326: PHASE). -/
def DomainA.idled (a : DomainA) : DomainA :=
  { a with busy := false, op := 0, phase := .idle, pos := .idle }

/-- Domain A with its producer engine idle after one PROCESSING phase (R326: TS_PROC_S and TS_PROC_E). -/
def DomainA.processed (a : DomainA) : DomainA :=
  { a.idled with tsProcS := a.cycle, tsProcE := a.cycle }

/-- The port an instruction stands on. -/
def portOf (i : Instr) : Port := (encode i).port

/-- The instructions that are reads of a port. -/
def isRead : Instr → Bool
  | .aReadMemData | .aReadOther _ | .bReadRdData | .bReadOther _ => true
  | .aNopA | .aCapture | .aFilter | .aWindow | .aFft | .aPower | .aDbconv | .aSpectrum | .aEdge | .aPublish
  | .aRun | .bNopB | .bPop | .bSwap | .aWriteMemData _ | .aWriteCmdA _ | .aWriteErrA _ | .aWriteMemSel _
  | .aWriteMemIdx _ | .aWriteOther _ _ | .bWriteCmdB _ | .bWriteErrB _ | .bWriteRdSel _ | .bWriteRdIdx _
  | .bWriteOther _ _ => false

/-- The buffer a `MEM_SEL` value selects for a host write (R405), if a host may write it. -/
def writableSpace (sel : BitVec 4) : Option Space :=
  match sel.toNat with
  | 0 => some .raw
  | 1 => some .filt
  | 2 => some .work
  | 3 => some .mag
  | _ => none

/-- The fields in which RUN's cycle and the host's sequence of commands differ (R330), set alike. -/
def DomainA.lessRun (a : DomainA) : DomainA :=
  { a with op := 0, busy := false, running := false, pos := .idle, frameCnt := 0 }

end Sys2Proof.Machine
end

