-- ==== Sys2Proof/Certificates/Slice0/Obligations.lean ====
section
/-! DEFINITION. The statements for the provers. Each docstring names the rule it formalises. -/

open Sys2Proof Sys2Proof.Machine

/-! ## Encoding -/

/-- R161, R171: decoding the words, and the bytes, of a well-formed instruction gives it back. That its bytes are
laid out least significant first, a transaction word before its data, is the model's choice (log 20). -/
def Obligations.DecodingInvertsEncoding : Prop :=
  ∀ i : Instr, i.wellFormed = true →
    decode (encode i) = .ok i ∧ decodeBytes (encode i).port (encode i).bytes = .ok i

/-- R165: every 32-bit word on either port is exactly one command or ILLEGAL. -/
def Obligations.CommandDecodingIsTheOpcodeMap : Prop :=
  ∀ w : Word,
    (decodeCommand .a w =
      if w.toNat / 256 ≠ 0 then .error (.illegalCommand w)
      else if w.toNat % 256 ≤ 0x0A then
        .ok (([.aNopA, .aCapture, .aFilter, .aWindow, .aFft, .aPower, .aDbconv, .aSpectrum, .aEdge, .aPublish,
          .aRun] : List Instr).getD (w.toNat % 256) .aNopA)
      else .error (.illegalCommand w))
    ∧ (decodeCommand .b w =
      if w.toNat / 256 ≠ 0 then .error (.illegalCommand w)
      else if w.toNat % 256 ≤ 0x02 then
        .ok (([.bNopB, .bPop, .bSwap] : List Instr).getD (w.toNat % 256) .bNopB)
      else .error (.illegalCommand w))
    ∧ (∀ p i, decodeCommand p w = .ok i → encode i = .command p w)

/-- R171, R46: a transaction word decodes to a well-formed instruction of its port, whatever address bits 1:0
are, and encoding it back gives the word with those bits 0 (a read's data word aside). -/
def Obligations.TransactionDecodingIgnoresLowAddressBits : Prop :=
  ∀ (p : Port) (tw : BitVec 13) (data : Word),
    (decodeTransaction p tw data).wellFormed = true
    ∧ portOf (decodeTransaction p tw data) = p
    ∧ (∀ tw' : BitVec 13, tw'.toNat / 4 = tw.toNat / 4 → decodeTransaction p tw' data = decodeTransaction p tw data)
    ∧ encode (decodeTransaction p tw data)
        = .transaction p (BitVec.ofNat 13 (tw.toNat / 4 * 4)) (if tw.toNat < 0x1000 then 0 else data)

/-- A few words of R163, R164, R165, R171 written out decode to the instructions they stand for. That a table word is
read on port A with write data 0, and that bytes are laid out least significant first with a transaction word before
its data, are the model's choices (log 11, log 20). -/
def Obligations.SampleWordsDecode : Prop :=
  decodeTableWord 32 0x00000008 = some .aEdge
  ∧ decodeTableWord 32 0x0000010A = none
  ∧ decodeTableWord 16 0x1058 = some (.aWriteMemData 0)
  ∧ decodeTableWord 16 0x0025 = some (.aReadOther 0x009)
  ∧ decodeBytes .b [0x02, 0x00, 0x00, 0x00] = .ok .bSwap
  ∧ decodeBytes .b [0x54, 0x10, 0x05, 0x00, 0x00, 0x00] = .ok (.bWriteRdIdx 5)

/-! ## The step -/

/-- R140, R44: when the next move is a transaction that decodes to `i`, the step is `exec i`, the move taken off
the schedule and nothing else added. -/
def Obligations.StepRunsTheDecodedInstruction : Prop :=
  ∀ (s : State) (r : Request) (es : List Event) (i : Instr),
    s.sched = .request r :: es → decodeRequest r = .ok i → step s = exec i { s with sched := es }

/-- R160: when the next move is a write of a command register whose word decodes to the command `i`, the step is
`exec i`. -/
def Obligations.StepRunsTheIssuedCommand : Prop :=
  ∀ (s : State) (r : Request) (es : List Event) (i : Instr),
    s.sched = .request r :: es → r.size = 4 → r.write = true → r.addr.toNat / 4 * 4 = 0x020 →
    decodeCommand r.port r.data = .ok i → step s = exec i { s with sched := es }

/-- R126, R440: the machine never stops with a fault, and the one thing a step refuses is an access of another
size than 4 bytes, by name. -/
def Obligations.StepStopsOnlyAtForeignAccessSizes : Prop :=
  ∀ s : State,
    (∃ t, step s = .next t)
    ∨ ∃ r es, s.sched = .request r :: es ∧ r.size ≠ 4 ∧ step s = .refused (.accessSize r.size)

/-! ## Commands -/

/-- R446: acceptance and rejection of every command word on both ports, in the rule's order; a rejected command
changes the error register only. -/
def Obligations.CommandIssueFollowsTheOrderOfChecks : Prop :=
  ∀ (s : State) (w : Word),
    (s.a.ready = true →
      exec (.aWriteCmdA w) s = .next (
        let n := w.toNat % 256
        let op := BitVec.ofNat 8 n
        if w.toNat / 256 ≠ 0 ∨ n > 0x0A then
          { s with a := { s.a with err := s.a.err.record .illegal op } }
        else if n = 0x00 then s
        else if s.a.busy = true then { s with a := { s.a with err := s.a.err.record .busy op } }
        else if s.a.mode = .oscilloscope ∧ 0x01 ≤ n ∧ n ≤ 0x07 then
          { s with a := { s.a with err := s.a.err.record .mode op } }
        else if s.a.mode = .spectrum ∧ n = 0x08 then
          { s with a := { s.a with err := s.a.err.record .mode op } }
        else
          { s with
            a := { s.a with
              busy := true
              op := op
              running := if n = 0x0A then true else s.a.running
              pos := .starting
                (if n = 0x01 ∨ n = 0x08 ∨ n = 0x0A then .capturing
                 else if n = 0x09 then .publishing else .processing) } }))
    ∧ (s.b.ready = true →
      exec (.bWriteCmdB w) s = .next (
        let n := w.toNat % 256
        let op := BitVec.ofNat 8 n
        if w.toNat / 256 ≠ 0 ∨ n > 0x02 then
          { s with b := { s.b with err := s.b.err.record .illegal op } }
        else if n = 0x00 then s
        else if s.b.busy = true then { s with b := { s.b with err := s.b.err.record .busy op } }
        else if n = 0x01 ∧ s.b.fresh = true then { s with b := { s.b with err := s.b.err.record .seq op } }
        else if n = 0x02 ∧ s.b.fresh = false then { s with b := { s.b with err := s.b.err.record .seq op } }
        else if n = 0x01 then { s with b := { s.b with busy := true, op := op, pos := .pop } }
        else { s with b := { s.b with active := !s.b.active, fresh := false } }))

/-- R207, R208, R209: FILTER runs to completion, and FILT holds the kept outputs of the one-pole IIR (any
sequence `y` that satisfies the recurrence from 0) and then zeros; nothing else changes but FILT_LEN and the
marks of one PROCESSING phase. -/
def Obligations.FilterEmitsTheDecimatedIir : Prop :=
  ∀ (s : State) (y : Nat → Int),
    s.cfg.valid = true → s.mem.raw.length = s.cfg.rawbufLen →
    s.a.ready = true → s.a.busy = false → s.a.mode = .spectrum →
    (∀ i, y i =
      max (-32768) (min 32767
        ((max (-32768) (min 32767
            ((((s.mem.raw.getD i 0).toNat : Int) - 2 ^ (s.cfg.adcBits - 1)) * 2 ^ s.cfg.q15Shift)) * s.cfg.alphaQ15
          + (if i = 0 then 0 else y (i - 1)) * (32768 - s.cfg.alphaQ15)) / 32768))) →
    ∃ s1 t, exec .aFilter s = .next s1 ∧ producerCompletes s1 t
      ∧ t = { s with
          a := { s.a.processed with filtLen := t.a.filtLen }
          mem := { s.mem with filt := t.mem.filt } }
      ∧ t.a.filtLen.toNat = min s.cfg.fftSize (s.cfg.rawSamples / s.cfg.decimateN)
      ∧ t.mem.filt.length = s.cfg.fftSize
      ∧ (∀ j, j < min s.cfg.fftSize (s.cfg.rawSamples / s.cfg.decimateN) →
          (elem t.mem.filt j).toInt = y (j * s.cfg.decimateN + s.cfg.decimateN - 1))
      ∧ (∀ j, min s.cfg.fftSize (s.cfg.rawSamples / s.cfg.decimateN) ≤ j → elem t.mem.filt j = 0)

/-- R245: WINDOW runs to completion, and every element of WORK is the windowed sample with imaginary part 0. -/
def Obligations.WindowMultipliesByTheHannTable : Prop :=
  ∀ s : State, s.a.ready = true → s.a.busy = false → s.a.mode = .spectrum →
    ∃ s1 t, exec .aWindow s = .next s1 ∧ producerCompletes s1 t
      ∧ t = { s with a := s.a.processed, mem := { s.mem with work := t.mem.work } }
      ∧ t.mem.work.length = s.cfg.fftSize
      ∧ ∀ n, n < s.cfg.fftSize →
          ((pairElem t.mem.work n).re.toInt = (elem s.mem.filt n).toInt * hann s.cfg n / 32768
            ∧ (pairElem t.mem.work n).im = 0)

/-- R250, R251, R252: FFT runs to completion, and its in-place loops make `LOG2_FFT` stages of disjoint
butterflies on the bit-reversed input: there are buffers `W 0, …, W LOG2_FFT`, each got from the one before it by
the butterflies of one stage, and WORK ends as the last. -/
def Obligations.FftIsItsStagesOfButterflies : Prop :=
  ∀ s : State, s.a.ready = true → s.a.busy = false → s.a.mode = .spectrum →
    s.mem.work.length = s.cfg.fftSize →
    ∃ s1 t, exec .aFft s = .next s1 ∧ producerCompletes s1 t
      ∧ t = { s with a := s.a.processed, mem := { s.mem with work := t.mem.work } }
      ∧ ∃ W : Nat → List Pair,
          (∀ k, (W k).length = s.cfg.fftSize)
          ∧ (∀ n, n < s.cfg.fftSize → pairElem (W 0) (bitrev s.cfg.log2Fft n) = pairElem s.mem.work n)
          ∧ (∀ k q j, k < s.cfg.log2Fft → q < s.cfg.fftSize / 2 ^ (k + 1) → j < 2 ^ k →
              let g := q * 2 ^ (k + 1)
              let w := twid s.cfg (j * (s.cfg.fftSize / 2 ^ (k + 1)))
              let x := pairElem (W k) (g + j)
              let z := pairElem (W k) (g + j + 2 ^ k)
              let tr := (z.re.toInt * w.re.toInt - z.im.toInt * w.im.toInt) / 32768
              let ti := (z.re.toInt * w.im.toInt + z.im.toInt * w.re.toInt) / 32768
              (pairElem (W (k + 1)) (g + j)).re.toInt = max (-32768) (min 32767 ((x.re.toInt + tr) / 2))
              ∧ (pairElem (W (k + 1)) (g + j)).im.toInt = max (-32768) (min 32767 ((x.im.toInt + ti) / 2))
              ∧ (pairElem (W (k + 1)) (g + j + 2 ^ k)).re.toInt = max (-32768) (min 32767 ((x.re.toInt - tr) / 2))
              ∧ (pairElem (W (k + 1)) (g + j + 2 ^ k)).im.toInt = max (-32768) (min 32767 ((x.im.toInt - ti) / 2)))
          ∧ t.mem.work = W s.cfg.log2Fft

/-- R260, R261: POWER runs to completion, and every element of MAG is the saturated magnitude squared, in
`0 .. 32767`. -/
def Obligations.PowerIsTheSaturatedMagnitudeSquared : Prop :=
  ∀ s : State, s.a.ready = true → s.a.busy = false → s.a.mode = .spectrum →
    ∃ s1 t, exec .aPower s = .next s1 ∧ producerCompletes s1 t
      ∧ t = { s with a := s.a.processed, mem := { s.mem with mag := t.mem.mag } }
      ∧ t.mem.mag.length = s.cfg.fftSize
      ∧ ∀ k, k < s.cfg.fftSize →
          ((elem t.mem.mag k).toInt =
              min 32767 (((pairElem s.mem.work k).re.toInt ^ 2 + (pairElem s.mem.work k).im.toInt ^ 2) / 8192)
            ∧ 0 ≤ (elem t.mem.mag k).toInt)

/-- R265: DBCONV runs to completion, and every element of DB is `dbfun` of the element of MAG, in
`DB_MIN .. DB_MAX` (R84). -/
def Obligations.DbconvConvertsEveryBin : Prop :=
  ∀ s : State, s.cfg.valid = true → s.a.ready = true → s.a.busy = false → s.a.mode = .spectrum →
    ∃ s1 t, exec .aDbconv s = .next s1 ∧ producerCompletes s1 t
      ∧ t = { s with a := s.a.processed, mem := { s.mem with db := t.mem.db } }
      ∧ t.mem.db.length = s.cfg.bins
      ∧ ∀ k, k < s.cfg.bins →
          ((elem t.mem.db k).toInt = dbfun s.cfg (elem s.mem.mag k).toInt
            ∧ s.cfg.dbMin ≤ (elem t.mem.db k).toInt ∧ (elem t.mem.db k).toInt ≤ s.cfg.dbMax)

/-- R275, R276: SPECTRUM leaves what WINDOW, FFT, POWER, DBCONV leave when issued one after another with nothing in
between. OP reads 0x07 throughout; PHASE is as it was, then PROCESSING without a break until the command completes:
one phase, whose timestamps bracket it. That the timestamps of the last of the four commands are equal to them rests
on the clocks standing still between the engine's steps, the model's choice (log 25); where those steps are cut is
the model's (log 8). -/
def Obligations.SpectrumEqualsItsFourCommands : Prop :=
  ∀ s : State, s.a.ready = true → s.a.busy = false → s.a.mode = .spectrum →
    ∃ s1 w1 w f1 f p1 p d1 t,
      exec .aWindow s = .next w1 ∧ producerCompletes w1 w
      ∧ exec .aFft w = .next f1 ∧ producerCompletes f1 f
      ∧ exec .aPower f = .next p1 ∧ producerCompletes p1 p
      ∧ exec .aDbconv p = .next d1 ∧ producerCompletes d1 t
      ∧ exec .aSpectrum s = .next s1 ∧ producerCompletes s1 t
      ∧ (∃ b e : Nat, b < e
          ∧ (∀ n, n < b → (producerSteps n s1).a.phase = s.a.phase)
          ∧ (∀ n, b ≤ n → n < e → (producerSteps n s1).a.phase = .processing)
          ∧ (∀ n, n < e → (producerSteps n s1).a.op = 0x07 ∧ (producerSteps n s1).a.busy = true)
          ∧ (∀ n, e ≤ n → producerSteps n s1 = t))
      ∧ t.a.phase = .idle ∧ t.a.tsProcS = s.a.cycle ∧ t.a.tsProcE = s.a.cycle

/-- R200, R201, R326: CAPTURE stores the `i`-th sample it takes in `RAW[i]`: none skipped, duplicated or reordered, none
taken beyond `RAW_SAMPLES`, and no other element written. First with the samples on offer, the engine and the ADC
source stepping in turn; then for every order of the engine's steps, the ADC source's transfers and the arrivals of
samples, on offer before or coming later: whenever the engine is idle again, and until then OP reads 0x01. Where the
engine's steps are cut is the model's (log 8). -/
def Obligations.CaptureStoresTheSamplesInOrder : Prop :=
  (∀ (s : State) (xs rest : List Half),
    s.a.ready = true → s.a.busy = false → s.a.waitAdc = false → s.a.mode = .spectrum →
    s.mem.raw.length = s.cfg.rawbufLen → s.adcOffered = xs ++ rest → xs.length = s.cfg.rawSamples →
    (∀ x ∈ xs, x.toNat < 2 ^ s.cfg.adcBits) →
    ∃ s1 m n, exec .aCapture s = .next s1
      ∧ producerSteps n (sampleRounds s.cfg.rawSamples (producerSteps m s1)) =
          { s with
            a := { s.a.idled with adcEn := false, tsCap := s.a.cycle }
            mem := { s.mem with raw := xs ++ s.mem.raw.drop s.cfg.rawSamples }
            adcOffered := rest })
  ∧ (∀ (s : State) (es : List Event) (xs : List Half),
    s.a.ready = true → s.a.busy = false → s.a.waitAdc = false → s.a.mode = .spectrum →
    s.mem.raw.length = s.cfg.rawbufLen → es.all isSampling = true → xs = s.adcOffered ++ samplesOffered es →
    (∀ x ∈ xs, x.toNat < 2 ^ s.cfg.adcBits) →
    ∃ s1 t, exec .aCapture s = .next s1
      ∧ Host.Core.run Sys2Proof.core es.length { s1 with sched := es } = .next t
      ∧ (t.a.busy = true → t.a.op = 0x01)
      ∧ (t.a.busy = false → s.cfg.rawSamples ≤ xs.length ∧
          t = { s with
            a := { s.a.idled with adcEn := false, tsCap := s.a.cycle }
            mem := { s.mem with raw := xs.take s.cfg.rawSamples ++ s.mem.raw.drop s.cfg.rawSamples }
            adcOffered := xs.drop s.cfg.rawSamples
            sched := [] }))

/-- R300 to R304: on a stream whose first trigger sample is number `k` (from 0), EDGE takes `k + 1 + OSC_SAMPLES` samples
and completes with TRIG_POS `k + 1`, or 0xFFFF_FFFF where that is less, and the samples after the trigger in RAW;
until then TRIG_POS keeps its value. First with the samples on offer, the engine and the ADC source stepping in turn;
then for every order of the engine's steps, the transfers and the arrivals of samples. Where the engine's steps are
cut is the model's (log 8). -/
def Obligations.EdgeCapturesAfterTheFirstTrigger : Prop :=
  (∀ (s : State) (xs : List Half) (k : Nat),
    s.a.ready = true → s.a.busy = false → s.a.waitAdc = false → s.a.mode = .oscilloscope →
    s.mem.raw.length = s.cfg.rawbufLen → s.adcOffered = xs → k + 1 + s.cfg.oscSamples ≤ xs.length →
    (∀ x ∈ xs, x.toNat < 2 ^ s.cfg.adcBits) → firstTrigger xs k →
    ∃ s1 m n, exec .aEdge s = .next s1
      ∧ (∀ j, j ≤ k + 1 + s.cfg.oscSamples → (sampleRounds j (producerSteps m s1)).a.trigPos = s.a.trigPos)
      ∧ producerSteps n (sampleRounds (k + 1 + s.cfg.oscSamples) (producerSteps m s1)) =
          { s with
            a := { s.a.idled with
              adcEn := false, tsCap := s.a.cycle, trigPos := BitVec.ofNat 32 (min (k + 1) 0xFFFFFFFF) }
            mem := { s.mem with
              raw := (xs.drop (k + 1)).take s.cfg.oscSamples ++ s.mem.raw.drop s.cfg.oscSamples }
            adcOffered := xs.drop (k + 1 + s.cfg.oscSamples) })
  ∧ (∀ (s : State) (es : List Event) (xs : List Half),
    s.a.ready = true → s.a.busy = false → s.a.waitAdc = false → s.a.mode = .oscilloscope →
    s.mem.raw.length = s.cfg.rawbufLen → es.all isSampling = true → xs = s.adcOffered ++ samplesOffered es →
    (∀ x ∈ xs, x.toNat < 2 ^ s.cfg.adcBits) →
    ∃ s1 t, exec .aEdge s = .next s1
      ∧ Host.Core.run Sys2Proof.core es.length { s1 with sched := es } = .next t
      ∧ (t.a.busy = true → t.a.op = 0x08 ∧ t.a.trigPos = s.a.trigPos)
      ∧ (t.a.busy = false → ∃ k, firstTrigger xs k ∧ k + 1 + s.cfg.oscSamples ≤ xs.length ∧
          t = { s with
            a := { s.a.idled with
              adcEn := false, tsCap := s.a.cycle, trigPos := BitVec.ofNat 32 (min (k + 1) 0xFFFFFFFF) }
            mem := { s.mem with
              raw := (xs.drop (k + 1)).take s.cfg.oscSamples ++ s.mem.raw.drop s.cfg.oscSamples }
            adcOffered := xs.drop (k + 1 + s.cfg.oscSamples)
            sched := [] }))

/-- R350, R352, R353: with the staging buffer free, PUBLISH runs to completion: the frame of the latched mode is
in STAGING, the elements beyond `FRAME_LEN` are as they were, the token is sent and counted. -/
def Obligations.PublishSendsTheFrameAndTheToken : Prop :=
  ∀ s : State, s.a.ready = true → s.a.busy = false → s.a.waitStaging = false → s.a.ackSync = s.a.req →
    s.mem.wf s.cfg = true →
    ∃ s1 t, exec .aPublish s = .next s1 ∧ producerCompletes s1 t
      ∧ t = { s with
          a := { s.a.idled with req := !s.a.req, pubCnt := s.a.pubCnt + 1 }
          mem := { s.mem with staging := t.mem.staging } }
      ∧ t.mem.staging.length = s.cfg.slotCap
      ∧ (∀ i, i < s.cfg.frameLen s.a.mode →
          elem t.mem.staging i =
            match s.a.mode with
            | .spectrum => elem s.mem.db i
            | .oscilloscope => elem s.mem.raw i)
      ∧ (∀ i, s.cfg.frameLen s.a.mode ≤ i → elem t.mem.staging i = elem s.mem.staging i)

/-- R356, R358: with a token pending, POP runs to completion: the slot ACTIVE does not name holds the frame, its
other elements and the active slot are as they were, the staging buffer is released and the POP counted. -/
def Obligations.PopCopiesTheFrameIn : Prop :=
  ∀ s : State, s.b.ready = true → s.b.busy = false → s.b.waitToken = false → s.b.fresh = false →
    s.b.reqSync ≠ s.b.ack → s.mem.wf s.cfg = true →
    ∃ s1 t, exec .bPop s = .next s1 ∧ consumerCompletes s1 t
      ∧ t = { s with
          b := { s.b with
            ack := !s.b.ack, popCnt := s.b.popCnt + 1, fresh := true, op := 0, busy := false, pos := .idle }
          mem := s.mem.setSlot (!s.b.active) (t.mem.slot (!s.b.active)) }
      ∧ (∀ i, i < s.cfg.frameLen s.b.mode → elem (t.mem.slot (!s.b.active)) i = elem s.mem.staging i)
      ∧ (∀ i, s.cfg.frameLen s.b.mode ≤ i →
          elem (t.mem.slot (!s.b.active)) i = elem (s.mem.slot (!s.b.active)) i)

/-- R351, R357: a PUBLISH that finds the staging buffer taken, and a POP that finds no token, hold with their wait bit set,
however often the engine is tried, with nothing else changed; the synchroniser step that brings the release, or the
token, ends the wait. R202, R305, R462, R47: CAPTURE, EDGE and RUN with no sample offered hold with WAIT_ADC and BUSY
1 in the same way; and in every state held for a sample, no move but a transfer of an offered sample, or reset, ends
the wait, the command or its capture. Where an engine's steps are cut is the model's (log 8), and so is the step that
clears the wait bit (log 9). -/
def Obligations.WaitsHoldUntilTheSynchroniserSteps : Prop :=
  (∀ s : State, s.a.ready = true → s.a.busy = false → s.a.waitStaging = false → s.a.ackSync ≠ s.a.req →
    ∃ s1, exec .aPublish s = .next s1
      ∧ (∀ n, producerSteps (n + 2) s1 =
          { s with
            a := { s.a with busy := true, op := 0x09, phase := .publishing, waitStaging := true, pos := .publish } })
      ∧ (s.b.ack = s.a.req →
          (ackSyncStep (producerSteps 2 s1)).a.waitStaging = false
          ∧ (ackSyncStep (producerSteps 2 s1)).a.stagingFree = true
          ∧ (producerStep (ackSyncStep (producerSteps 2 s1))).a.pos = .publishCopy))
  ∧ (∀ s : State, s.b.ready = true → s.b.busy = false → s.b.waitToken = false → s.b.fresh = false →
    s.b.reqSync = s.b.ack →
    ∃ s1, exec .bPop s = .next s1
      ∧ (∀ n, consumerSteps (n + 1) s1 =
          { s with b := { s.b with busy := true, op := 0x01, waitToken := true, pos := .pop } })
      ∧ (s.a.req ≠ s.b.ack →
          (reqSyncStep (consumerSteps 1 s1)).b.waitToken = false
          ∧ (reqSyncStep (consumerSteps 1 s1)).b.tokenPending = true
          ∧ (consumerStep (reqSyncStep (consumerSteps 1 s1))).b.pos = .popCopy))
  ∧ (∀ s : State, s.cfg.valid = true → s.a.ready = true → s.a.busy = false → s.a.waitAdc = false →
    s.adcOffered = [] →
    ∀ (i : Instr) (op : BitVec 8) (run : Bool) (pos : ProducerPos),
      (i, op, run, pos) ∈ (match s.a.mode with
        | .spectrum => [(.aCapture, 0x01, s.a.running, .capture 0), (.aRun, 0x0A, true, .capture 0)]
        | .oscilloscope => [(.aEdge, 0x08, s.a.running, .edgeFirst), (.aRun, 0x0A, true, .edgeFirst)] :
          List (Instr × BitVec 8 × Bool × ProducerPos)) →
      ∃ s1, exec i s = .next s1
        ∧ (∀ n, producerSteps (n + 2) s1 =
            { s with
              a := { s.a with
                busy := true, op := op, running := run, phase := .capturing, adcEn := true, tsCap := s.a.cycle,
                waitAdc := true, pos := pos } })
        ∧ adcTransfer (producerSteps 2 s1) = producerSteps 2 s1)
  ∧ (∀ s : State, s.engineInv = true → s.a.waitAdc = true →
    (∀ n, producerSteps n s = s)
    ∧ (∀ t, step s = .next t →
        (t.a.waitAdc = true ∧ t.a.busy = true ∧ t.a.op = s.a.op ∧ t.a.phase = s.a.phase ∧ t.a.pos = s.a.pos
          ∧ t.a.adcEn = s.a.adcEn ∧ t.a.running = s.a.running ∧ t.mem.raw = s.mem.raw)
        ∨ (s.mover = some .adcSource ∧ t.a.waitAdc = false ∧ t.a.busy = true ∧ t.a.op = s.a.op
          ∧ ∃ v, s.adcOffered = v :: t.adcOffered)
        ∨ (t.rstN = false ∧ t.a.ready = false)))

/-- R361: SWAP is done at its write, and is refused while a POP executes or no popped frame waits. -/
def Obligations.SwapTogglesTheActiveSlot : Prop :=
  ∀ s : State, s.b.ready = true →
    (s.b.busy = false → s.b.fresh = true →
      exec .bSwap s = .next { s with b := { s.b with active := !s.b.active, fresh := false } })
    ∧ (s.b.busy = true → exec .bSwap s = .next { s with b := { s.b with err := s.b.err.record .busy 0x02 } })
    ∧ (s.b.busy = false → s.b.fresh = false →
      exec .bSwap s = .next { s with b := { s.b with err := s.b.err.record .seq 0x02 } })

/-- R320, R355: NOP_A and NOP_B complete in every state and change nothing. -/
def Obligations.NopsChangeNothing : Prop :=
  ∀ s : State, exec .aNopA s = .next s ∧ exec .bNopB s = .next s

/-- R322, R323, R324: RUN is accepted in SPECTRUM mode and captures `RAW_SAMPLES` samples; the capture then
advances FRAME_CNT modulo FRAME_RATE, and the cycle processes exactly when the new value is 0, else captures
again, with no buffer but RAW changed. Where the engine's steps are cut is the model's (log 8). -/
def Obligations.RunCountsItsCaptures : Prop :=
  ∀ (s : State) (xs rest : List Half),
    s.cfg.valid = true → s.a.ready = true → s.a.busy = false → s.a.waitAdc = false → s.a.mode = .spectrum →
    s.mem.raw.length = s.cfg.rawbufLen → s.adcOffered = xs ++ rest → xs.length = s.cfg.rawSamples →
    (∀ x ∈ xs, x.toNat < 2 ^ s.cfg.adcBits) →
    ∃ s1 t, exec .aRun s = .next s1
      ∧ s1 = { s with a := { s.a with busy := true, op := 0x0A, running := true, pos := .starting .capturing } }
      ∧ producerStep (sampleRounds s.cfg.rawSamples (producerStep s1)) = t
      ∧ t = { s with
          a := { s.a with
            busy := true
            op := 0x0A
            running := true
            phase := .idle
            adcEn := false
            tsCap := s.a.cycle
            frameCnt := t.a.frameCnt
            pos := t.a.pos }
          mem := { s.mem with raw := xs ++ s.mem.raw.drop s.cfg.rawSamples }
          adcOffered := rest }
      ∧ t.a.frameCnt.toNat = (s.a.frameCnt.toNat + 1) % s.cfg.frameRate
      ∧ (t.a.frameCnt.toNat = 0 → t.a.pos = .starting .processing)
      ∧ (t.a.frameCnt.toNat ≠ 0 → t.a.pos = .starting .capturing)

/-- R330: in SPECTRUM mode with FRAME_RATE 1 one cycle of RUN leaves what CAPTURE, FILTER, SPECTRUM, PUBLISH
leave, each issued after the one before it completed; in OSCILLOSCOPE mode what EDGE, PUBLISH leave; they differ
only in OP, BUSY, RUNNING, the engine's position and FRAME_CNT (the clocks standing still, in no timestamp). Where
an engine's steps are cut is the model's (log 8), and that the timestamps agree rests on the clocks standing still
between those steps, the model's choice (log 25). -/
def Obligations.RunCycleEqualsTheHostSequence : Prop :=
  (∀ s : State, s.cfg.valid = true → s.cfg.frameRate = 1 → s.engineInv = true → s.mem.wf s.cfg = true →
    s.a.ready = true → s.a.busy = false → s.a.mode = .spectrum → s.a.ackSync = s.a.req →
    s.cfg.rawSamples ≤ s.adcOffered.length →
    ∃ r1 c1 c f1 f p1 p q1 u t, ∃ i j k : Nat, exec .aRun s = .next r1
      ∧ exec .aCapture s = .next c1
      ∧ producerCompletes (sampleRounds s.cfg.rawSamples (producerSteps i c1)) c
      ∧ exec .aFilter c = .next f1 ∧ producerCompletes f1 f
      ∧ exec .aSpectrum f = .next p1 ∧ producerCompletes p1 p
      ∧ exec .aPublish p = .next q1 ∧ producerCompletes q1 u
      ∧ t = producerSteps k (sampleRounds s.cfg.rawSamples (producerSteps j r1))
      ∧ t.mem = u.mem ∧ t.b = u.b ∧ t.adcOffered = u.adcOffered
      ∧ t.a.lessRun = u.a.lessRun ∧ t.a.running = true)
  ∧ (∀ (s : State) (n : Nat), s.engineInv = true → s.mem.wf s.cfg = true →
    s.a.ready = true → s.a.busy = false → s.a.mode = .oscilloscope → s.a.ackSync = s.a.req →
    ∀ c1, exec .aEdge s = .next c1 →
    (sampleRounds n (producerStep c1)).a.busy = true →
    (producerStep (sampleRounds n (producerStep c1))).a.busy = false →
    ∃ r1 q1, exec .aRun s = .next r1
      ∧ exec .aPublish (producerStep (sampleRounds n (producerStep c1))) = .next q1
      ∧ ∃ t u, ∃ k : Nat, t = producerSteps k (sampleRounds n (producerStep r1)) ∧ producerCompletes q1 u
        ∧ t.mem = u.mem ∧ t.b = u.b ∧ t.adcOffered = u.adcOffered
        ∧ t.a.lessRun = u.a.lessRun ∧ t.a.running = true)

/-! ## Transactions -/

/-- R406, R408: a MEM_DATA read that passes its checks returns the selected element in its format and advances
MEM_IDX, and changes nothing else. -/
def Obligations.MemDataReadReturnsTheElement : Prop :=
  ∀ s : State, s.cfg.valid = true → s.mem.wf s.cfg = true →
    s.a.ready = true → s.a.busy = false → s.a.memIdx.toNat < windowLen s.cfg s.a.memSel →
    ∃ r : Word,
      exec .aReadMemData s = .next { s with a := { s.a with memIdx := s.a.memIdx + 1, rdata := r } }
      ∧ (s.a.memSel = 0 → r.toNat = (elem s.mem.raw s.a.memIdx.toNat).toNat)
      ∧ (s.a.memSel = 1 → r.toInt = (elem s.mem.filt s.a.memIdx.toNat).toInt)
      ∧ (s.a.memSel = 2 → r.toNat = (pairElem s.mem.work s.a.memIdx.toNat).re.toNat
          + 65536 * (pairElem s.mem.work s.a.memIdx.toNat).im.toNat)
      ∧ (s.a.memSel = 3 → r.toInt = (elem s.mem.mag s.a.memIdx.toNat).toInt)
      ∧ (s.a.memSel = 4 → r.toInt = (elem s.mem.db s.a.memIdx.toNat).toInt)
      ∧ (s.a.memSel = 5 → (r.toNat : Int) = hann s.cfg s.a.memIdx.toNat)
      ∧ (s.a.memSel = 6 → r.toNat = (twid s.cfg s.a.memIdx.toNat).re.toNat
          + 65536 * (twid s.cfg s.a.memIdx.toNat).im.toNat)
      ∧ (s.a.memSel = 7 → s.a.mode = .spectrum → r.toInt = (elem s.mem.staging s.a.memIdx.toNat).toInt)
      ∧ (s.a.memSel = 7 → s.a.mode = .oscilloscope → r.toNat = (elem s.mem.staging s.a.memIdx.toNat).toNat)

/-- R407: a MEM_DATA write that passes its checks stores the low bits of the word in the selected element and
advances MEM_IDX; every other element of every buffer, and everything else, is as it was. -/
def Obligations.MemDataWriteStoresTheElement : Prop :=
  ∀ (s : State) (v : Word), s.cfg.valid = true → s.mem.wf s.cfg = true →
    s.a.ready = true → s.a.busy = false → s.a.memSel.toNat ≤ 3 →
    s.a.memIdx.toNat < windowLen s.cfg s.a.memSel →
    ∃ m : Memory,
      exec (.aWriteMemData v) s = .next { s with a := { s.a with memIdx := s.a.memIdx + 1 }, mem := m }
      ∧ (s.a.memSel = 0 → (elem m.raw s.a.memIdx.toNat).toNat = v.toNat % 2 ^ s.cfg.adcBits)
      ∧ (s.a.memSel = 1 → (elem m.filt s.a.memIdx.toNat).toNat = v.toNat % 65536)
      ∧ (s.a.memSel = 2 → (pairElem m.work s.a.memIdx.toNat).re.toNat = v.toNat % 65536
          ∧ (pairElem m.work s.a.memIdx.toNat).im.toNat = v.toNat / 65536)
      ∧ (s.a.memSel = 3 → (elem m.mag s.a.memIdx.toNat).toNat = v.toNat % 65536)
      ∧ (∀ sp i, ¬ (writableSpace s.a.memSel = some sp ∧ i = s.a.memIdx.toNat) → m.cell sp i = s.mem.cell sp i)

/-- R405, R447: the checks of a MEM_DATA access in their order, with the lengths of the table; an access that
raises changes the error record only, and a read then answers 0. -/
def Obligations.WindowChecksInTheirOrder : Prop :=
  ∀ (s : State) (v : Word), s.a.ready = true →
    windowLen s.cfg s.a.memSel =
      ([max s.cfg.rawSamples s.cfg.oscSamples, 2 ^ s.cfg.log2Fft, 2 ^ s.cfg.log2Fft, 2 ^ s.cfg.log2Fft,
        2 ^ s.cfg.log2Fft / 2, 2 ^ s.cfg.log2Fft, 2 ^ s.cfg.log2Fft / 2,
        max (2 ^ s.cfg.log2Fft / 2) s.cfg.oscSamples] : List Nat).getD s.a.memSel.toNat 0
    ∧ (s.a.busy = true →
        exec .aReadMemData s = .next { s with a := { s.a with err := s.a.err.record .winBusy 0, rdata := 0 } }
        ∧ exec (.aWriteMemData v) s = .next { s with a := { s.a with err := s.a.err.record .winBusy 0 } })
    ∧ (s.a.busy = false → windowLen s.cfg s.a.memSel ≤ s.a.memIdx.toNat →
        exec .aReadMemData s = .next { s with a := { s.a with err := s.a.err.record .range 0, rdata := 0 } }
        ∧ exec (.aWriteMemData v) s = .next { s with a := { s.a with err := s.a.err.record .range 0 } })
    ∧ (s.a.busy = false → s.a.memIdx.toNat < windowLen s.cfg s.a.memSel →
        4 ≤ s.a.memSel.toNat →
        exec (.aWriteMemData v) s = .next { s with a := { s.a with err := s.a.err.record .readOnly 0 } })

/-- R401, R413: the selects and the indices take the low bits of the word, in every state out of reset. -/
def Obligations.SelectWritesTakeTheLowBits : Prop :=
  ∀ (s : State) (v : Word),
    (s.a.ready = true →
      exec (.aWriteMemSel v) s = .next { s with a := { s.a with memSel := BitVec.ofNat 4 v.toNat } }
      ∧ exec (.aWriteMemIdx v) s = .next { s with a := { s.a with memIdx := BitVec.ofNat 16 v.toNat } })
    ∧ (s.b.ready = true →
      exec (.bWriteRdSel v) s = .next { s with b := { s.b with rdSel := BitVec.ofNat 2 v.toNat } }
      ∧ exec (.bWriteRdIdx v) s = .next { s with b := { s.b with rdIdx := BitVec.ofNat 16 v.toNat } })

/-- R403: any write of an error register clears it whole, and changes nothing else. -/
def Obligations.ErrorWritesClearTheRecord : Prop :=
  ∀ (s : State) (v : Word),
    (s.a.ready = true →
      exec (.aWriteErrA v) s = .next { s with a := { s.a with err := ⟨0, false, 0⟩ } })
    ∧ (s.b.ready = true →
      exec (.bWriteErrB v) s = .next { s with b := { s.b with err := ⟨0, false, 0⟩ } })

/-- R410, R411, R412: an RD_DATA read: the slot by RD_SEL, HAZARD before RANGE, the element in the format of the
latched mode, RD_IDX advanced on success only. -/
def Obligations.RdDataReadReturnsTheSlotElement : Prop :=
  ∀ s : State, s.b.ready = true →
    ∃ n : Bool, ∃ r : Word,
      (s.b.rdSel = 0 → n = false) ∧ (s.b.rdSel = 1 → n = true) ∧ (s.b.rdSel = 2 → n = s.b.active)
      ∧ (s.b.rdSel = 3 → n = !s.b.active)
      ∧ (s.b.mode = .spectrum → r.toInt = (elem (s.mem.slot n) s.b.rdIdx.toNat).toInt)
      ∧ (s.b.mode = .oscilloscope → r.toNat = (elem (s.mem.slot n) s.b.rdIdx.toNat).toNat)
      ∧ exec .bReadRdData s = .next (
          if s.b.busy = true ∧ n = !s.b.active then
            { s with b := { s.b with err := s.b.err.record .hazard 0, rdata := 0 } }
          else if s.cfg.slotCap ≤ s.b.rdIdx.toNat then
            { s with b := { s.b with err := s.b.err.record .range 0, rdata := 0 } }
          else { s with b := { s.b with rdIdx := s.b.rdIdx + 1, rdata := r } })

/-- R400, R60, R73: a read of any other offset answers its register: the constants, the counters and records, 0
for a write-only register and an unmapped offset; nothing else changes. A read of a diagnostic counter answers a
value no rule gives (R72), and moves the model's own counter of free values (log 6). -/
def Obligations.RegisterReadsAnswerTheirRegister : Prop :=
  ∀ (s : State) (off : BitVec 10),
    (s.a.ready = true → (Instr.aReadOther off).wellFormed = true →
      if off.toNat * 4 ∈ [0x03C, 0x040, 0x044, 0x048] then
        ∃ r, exec (.aReadOther off) s = .next { s with a := { s.a with rdata := r }, draws := s.draws + 1 }
      else
        ∃ r, exec (.aReadOther off) s = .next { s with a := { s.a with rdata := r } }
          ∧ (off.toNat * 4 = 0x000 → r = 0x44535031)
          ∧ (off.toNat * 4 = 0x020 → r = 0)
          ∧ (off.toNat * 4 = 0x024 → r = statusA s.a)
          ∧ (off.toNat * 4 = 0x028 → r = s.a.err.word)
          ∧ (off.toNat * 4 = 0x02C → r.toNat = s.a.filtLen.toNat)
          ∧ (off.toNat * 4 = 0x030 → r = s.a.trigPos)
          ∧ (off.toNat * 4 = 0x034 → r.toNat = s.a.frameCnt.toNat)
          ∧ (off.toNat * 4 = 0x038 → r = s.a.pubCnt)
          ∧ (off.toNat * 4 = 0x050 → r.toNat = s.a.memSel.toNat)
          ∧ (off.toNat * 4 = 0x054 → r.toNat = s.a.memIdx.toNat)
          ∧ (off.toNat * 4 = 0x01C ∨ off.toNat * 4 = 0x04C ∨ 0x05C ≤ off.toNat * 4 → r = 0))
    ∧ (s.b.ready = true → (Instr.bReadOther off).wellFormed = true →
      if off.toNat * 4 = 0x030 then
        ∃ r, exec (.bReadOther off) s = .next { s with b := { s.b with rdata := r }, draws := s.draws + 1 }
      else
        ∃ r, exec (.bReadOther off) s = .next { s with b := { s.b with rdata := r } }
          ∧ (off.toNat * 4 = 0x000 → r = 0x44535031)
          ∧ (off.toNat * 4 = 0x004 → r = cfgB s.cfg s.b.mode)
          ∧ (off.toNat * 4 = 0x020 → r = 0)
          ∧ (off.toNat * 4 = 0x024 → r = statusB s.b)
          ∧ (off.toNat * 4 = 0x028 → r = s.b.err.word)
          ∧ (off.toNat * 4 = 0x02C → r = s.b.popCnt)
          ∧ (off.toNat * 4 = 0x050 → r.toNat = s.b.rdSel.toNat)
          ∧ (off.toNat * 4 = 0x054 → r.toNat = s.b.rdIdx.toNat)
          ∧ (0x008 ≤ off.toNat * 4 ∧ off.toNat * 4 ≤ 0x01C ∨ 0x034 ≤ off.toNat * 4 ∧ off.toNat * 4 ≤ 0x04C
              ∨ 0x05C ≤ off.toNat * 4 → r = 0))

/-- R402, R414: a write of any other offset completes, stores nothing and records no error. -/
def Obligations.OtherWritesStoreNothing : Prop :=
  ∀ (s : State) (off : BitVec 10) (v : Word),
    exec (.aWriteOther off v) s = .next s ∧ exec (.bWriteOther off v) s = .next s

/-- R63, R64, R73: the bits of STATUS_A, STATUS_B and the error registers. -/
def Obligations.StatusWordsHoldTheirFields : Prop :=
  (∀ a : DomainA, (statusA a).toNat =
      a.ready.toNat + 2 * a.busy.toNat + 4 * a.running.toNat + 8 * a.waitAdc.toNat + 16 * a.waitStaging.toNat
        + 32 * (a.ackSync == a.req).toNat + 64 * (a.err.code != 0).toNat
        + 256 * (match a.mode with | .spectrum => 0 | .oscilloscope => 1)
        + 512 * (match a.phase with | .idle => 0 | .capturing => 1 | .processing => 2 | .publishing => 3)
        + 65536 * a.op.toNat)
  ∧ (∀ b : DomainB, (statusB b).toNat =
      b.ready.toNat + 2 * b.busy.toNat + 4 * b.waitToken.toNat + 8 * (b.reqSync != b.ack).toNat
        + 16 * b.fresh.toNat + 32 * b.active.toNat + 64 * (b.err.code != 0).toNat
        + 256 * (match b.mode with | .spectrum => 0 | .oscilloscope => 1) + 65536 * b.op.toNat)
  ∧ (∀ e : ErrorRecord, e.word.toNat = e.code.toNat + 128 * e.multi.toNat + 256 * e.opc.toNat)

/-- R61, R73: the configuration words of a built instance, read on their ports, hold the parameters in their
fields and 0 elsewhere, and a write of one is ignored. -/
def Obligations.ConfigurationWordsHoldTheParameters : Prop :=
  ∀ (s : State) (k : Nat) (v : Word), s.cfg.valid = true → s.a.ready = true → s.b.ready = true → k < 6 →
    (∃ r : Word, exec (.aReadOther (BitVec.ofNat 10 (k + 1))) s = .next { s with a := { s.a with rdata := r } }
      ∧ r.toNat =
        ([s.cfg.adcBits + 2 ^ 8 * (match s.a.mode with | .spectrum => 0 | .oscilloscope => 1)
            + 2 ^ 12 * s.cfg.q15Shift + 2 ^ 16 * s.cfg.log2Fft + 2 ^ 24 * s.cfg.dbEpsExp,
          s.cfg.rawSamples + 65536 * s.cfg.decimateN,
          2 ^ s.cfg.log2Fft + 65536 * s.cfg.oscSamples,
          s.cfg.alphaQ15 + 65536 * s.cfg.frameRate,
          (s.cfg.dbMin % 65536).toNat + 65536 * (s.cfg.dbMax % 65536).toNat,
          s.cfg.syncStages + 65536 * (match s.a.mode with
            | .spectrum => 2 ^ s.cfg.log2Fft / 2
            | .oscilloscope => s.cfg.oscSamples)] : List Nat).getD k 0)
    ∧ exec (.aWriteOther (BitVec.ofNat 10 (k + 1)) v) s = .next s
    ∧ (∃ r : Word, exec (.bReadOther 0x001) s = .next { s with b := { s.b with rdata := r } }
      ∧ r.toNat = s.cfg.syncStages + 2 ^ 8 * (match s.b.mode with | .spectrum => 0 | .oscilloscope => 1)
        + 65536 * (match s.b.mode with
            | .spectrum => 2 ^ s.cfg.log2Fft / 2
            | .oscilloscope => s.cfg.oscSamples))

/-- R43, R480: while a domain is in reset its port answers 0 to every read and ignores every write. -/
def Obligations.PortsInResetReadZeroAndIgnoreWrites : Prop :=
  ∀ (i : Instr) (s : State),
    (portOf i = .a → s.a.ready = false →
      exec i s = .next (if isRead i = true then { s with a := { s.a with rdata := 0 } } else s))
    ∧ (portOf i = .b → s.b.ready = false →
      exec i s = .next (if isRead i = true then { s with b := { s.b with rdata := 0 } } else s))

/-! ## Errors and frames over all instructions -/

/-- R441, R444, R445: what a raise records: with CODE 0 the record takes the number of the error in the table of R441
and the OPC given, MULTI as it was; with CODE nonzero only MULTI changes, to 1; and nothing but the port's record
changes (which OPC each error gives, R442, is in `CommandIssueFollowsTheOrderOfChecks`, `WindowChecksInTheirOrder`
and `RdDataReadReturnsTheSlotElement`). Once an error is recorded, no instruction but a write of that error register
changes its CODE or OPC or takes back its MULTI. -/
def Obligations.TheFirstErrorIsKept : Prop :=
  (∀ (c : ErrorCode) (n : BitVec 4),
    (c, n) ∈ ([(.illegal, 1), (.busy, 2), (.mode, 3), (.range, 4), (.winBusy, 5), (.readOnly, 6), (.seq, 7),
      (.hazard, 8)] : List (ErrorCode × BitVec 4)) →
    ∀ (e : ErrorRecord) (s : State) (opc : BitVec 8),
      (e.code = 0 → e.record c opc = ⟨n, e.multi, opc⟩)
      ∧ (e.code ≠ 0 → e.record c opc = ⟨e.code, true, e.opc⟩)
      ∧ s.raise .a c opc = { s with a := { s.a with err := s.a.err.record c opc } }
      ∧ s.raise .b c opc = { s with b := { s.b with err := s.b.err.record c opc } })
  ∧ (∀ c : ErrorCode, ∃ n : BitVec 4, (c, n) ∈ ([(.illegal, 1), (.busy, 2), (.mode, 3), (.range, 4), (.winBusy, 5),
      (.readOnly, 6), (.seq, 7), (.hazard, 8)] : List (ErrorCode × BitVec 4)))
  ∧ (∀ (i : Instr) (s t : State), exec i s = .next t →
    ((∀ v, i ≠ .aWriteErrA v) → s.a.err.code ≠ 0 →
      t.a.err.code = s.a.err.code ∧ t.a.err.opc = s.a.err.opc ∧ (s.a.err.multi = true → t.a.err.multi = true))
    ∧ ((∀ v, i ≠ .bWriteErrB v) → s.b.err.code ≠ 0 →
      t.b.err.code = s.b.err.code ∧ t.b.err.opc = s.b.err.opc ∧ (s.b.err.multi = true → t.b.err.multi = true)))

/-- R448, R458: a transaction of one port changes nothing of the other domain, no pin, no parameter, no sample on
offer, and no token bit. -/
def Obligations.EachPortReachesOnlyItsDomain : Prop :=
  ∀ (i : Instr) (s t : State), exec i s = .next t →
    t.cfg = s.cfg ∧ t.rstN = s.rstN ∧ t.modeStrap = s.modeStrap ∧ t.adcOffered = s.adcOffered
    ∧ t.sched = s.sched ∧ t.turn = s.turn
    ∧ (portOf i = .a → t.b = s.b ∧ t.a.req = s.a.req ∧ t.a.ackSync = s.a.ackSync)
    ∧ (portOf i = .b → t.a = s.a ∧ t.b.reqSync = s.b.reqSync ∧ t.b.ack = s.b.ack)

/-- R90, R407: no instruction but a MEM_DATA write changes a buffer at its transaction, and a MEM_DATA write
changes at most element MEM_IDX of the buffer MEM_SEL selects. -/
def Obligations.TransactionsWriteBuffersOnlyThroughMemData : Prop :=
  ∀ (i : Instr) (s t : State), exec i s = .next t →
    ((∀ v, i ≠ .aWriteMemData v) → t.mem = s.mem)
    ∧ (∀ sp k, ¬ (writableSpace s.a.memSel = some sp ∧ k = s.a.memIdx.toNat) → t.mem.cell sp k = s.mem.cell sp k)

/-! ## Invariants -/

/-- R80 to R88, R123: every step keeps the form of the buffers. -/
def Obligations.EveryStepKeepsTheBufferForm : Prop :=
  ∀ s t : State, s.mem.wf s.cfg = true → step s = .next t → t.mem.wf t.cfg = true

/-- R51, R52, R371, R374, R482: every step keeps each engine's status in agreement with its position, the four handshake
bits in a phase of R371, and the two counters apart by the frame outstanding. And the phases follow each other in the
order (a), (b), (c), (d) only: a step leaves the four bits as they are, or is the one step the table of R371 names
for the phase it leaves and changes the one bit of that step, or is the assertion of reset, which clears all four. -/
def Obligations.EveryStepKeepsTheEnginesAndTheHandshake : Prop :=
  ∀ s t : State, s.engineInv = true → step s = .next t →
    t.engineInv = true
    ∧ ((t.a.req = s.a.req ∧ t.b.reqSync = s.b.reqSync ∧ t.b.ack = s.b.ack ∧ t.a.ackSync = s.a.ackSync)
      ∨ (s.handshake = some .idle ∧ t.handshake = some .tokenInFlight
          ∧ s.mover = some .producerEngine ∧ s.a.pos = .publishToggle ∧ t.a.pubCnt = s.a.pubCnt + 1
          ∧ t.a.req = !s.a.req ∧ t.b.reqSync = s.b.reqSync ∧ t.b.ack = s.b.ack ∧ t.a.ackSync = s.a.ackSync)
      ∨ (s.handshake = some .tokenInFlight ∧ t.handshake = some .tokenPending
          ∧ s.mover = some .reqSynchroniser
          ∧ t.a.req = s.a.req ∧ t.b.reqSync = s.a.req ∧ t.b.ack = s.b.ack ∧ t.a.ackSync = s.a.ackSync)
      ∨ (s.handshake = some .tokenPending ∧ t.handshake = some .releaseInFlight
          ∧ s.mover = some .consumerEngine ∧ s.b.pos = .popRelease ∧ t.b.popCnt = s.b.popCnt + 1
          ∧ t.a.req = s.a.req ∧ t.b.reqSync = s.b.reqSync ∧ t.b.ack = !s.b.ack ∧ t.a.ackSync = s.a.ackSync)
      ∨ (s.handshake = some .releaseInFlight ∧ t.handshake = some .idle
          ∧ s.mover = some .ackSynchroniser
          ∧ t.a.req = s.a.req ∧ t.b.reqSync = s.b.reqSync ∧ t.b.ack = s.b.ack ∧ t.a.ackSync = s.b.ack)
      ∨ (t.rstN = false ∧ t.a.ready = false ∧ t.b.ready = false
          ∧ t.a.req = false ∧ t.b.reqSync = false ∧ t.b.ack = false ∧ t.a.ackSync = false))

/-- R441, R67, R87: every step keeps the error codes those of the port, FRAME_CNT below FRAME_RATE, and the
elements of STAGING and the slots beyond FRAME_LEN at 0. -/
def Obligations.EveryStepKeepsRecordsDividerAndTails : Prop :=
  ∀ s t : State, s.a.errorOk = true → s.b.errorOk = true → s.frameCntOk = true → s.tailsZero = true →
    s.mem.wf s.cfg = true → step s = .next t →
    t.a.errorOk = true ∧ t.b.errorOk = true ∧ t.frameCntOk = true ∧ t.tailsZero = true

/-- The invariants hold right after reset, for every built instance, `State.reset` among them; its strap of 0 and
its domains both out of reset are the model's choices (log 3, log 4). -/
def Obligations.TheInvariantsHoldAfterReset : Prop :=
  (∀ (p : Params) (strap : Bool), p.valid = true →
    (State.initial p strap).mem.wf p = true ∧ (State.initial p strap).engineInv = true
    ∧ (State.initial p strap).a.errorOk = true ∧ (State.initial p strap).b.errorOk = true
    ∧ (State.initial p strap).frameCntOk = true ∧ (State.initial p strap).tailsZero = true)
  ∧ defaultParams.valid = true ∧ State.reset = State.initial defaultParams false

/-- R12, R14, R49: no step changes a parameter, and a domain's MODE changes only as it leaves reset, to the level
of `mode_strap` at that time. -/
def Obligations.ParametersAndModeAreFixedBetweenResets : Prop :=
  ∀ s t : State, step s = .next t →
    t.cfg = s.cfg
    ∧ (t.a.mode = s.a.mode ∨ (s.a.ready = false ∧ t.a.ready = true ∧ t.a.mode = modeOfStrap s.modeStrap))
    ∧ (t.b.mode = s.b.mode ∨ (s.b.ready = false ∧ t.b.ready = true ∧ t.b.mode = modeOfStrap s.modeStrap))

/-- R372, R143: STAGING changes only in phase (a), by PUBLISH's copy, or as domain A leaves reset; and POP reads
it only in phase (c). -/
def Obligations.StagingIsStableWhileTheConsumerMayRead : Prop :=
  ∀ s t : State, s.engineInv = true → step s = .next t →
    (t.mem.staging ≠ s.mem.staging →
      (s.handshake = some .idle ∧ s.a.pos = .publishCopy ∧ s.a.waitStaging = false) ∨ s.a.ready = false)
    ∧ (s.b.pos = .popCopy → s.handshake = some .tokenPending)

/-- R88, R144, R358: a slot changes only by POP's copy-in into the slot ACTIVE does not name, while BUSY is 1 and
a token pends, or as domain B leaves reset. -/
def Obligations.SlotsChangeOnlyByCopyIn : Prop :=
  ∀ (s t : State) (n : Bool), s.engineInv = true → step s = .next t → t.mem.slot n ≠ s.mem.slot n →
    (n = !s.b.active ∧ t.b.active = s.b.active ∧ s.b.pos = .popCopy ∧ s.b.busy = true
      ∧ s.handshake = some .tokenPending) ∨ s.b.ready = false

/-- R78: ACTIVE changes only by SWAP, which is accepted only while FRESH is 1 and no POP executes, and clears
FRESH, or by reset. -/
def Obligations.ActiveChangesOnlyBySwap : Prop :=
  ∀ s t : State, step s = .next t → t.b.active ≠ s.b.active →
    (∃ r es, s.sched = .request r :: es ∧ r.port = .b
        ∧ (decodeRequest r = .ok (.bWriteCmdB 0x02)) ∧ s.b.fresh = true ∧ s.b.busy = false
        ∧ t.b = { s.b with active := !s.b.active, fresh := false })
    ∨ (t.b.ready = false ∧ t.rstN = false) ∨ (s.b.ready = false ∧ t.b.ready = true)

/-- R373, R374: from the step in which PUBLISH sends its token, whatever moves come, as long as neither domain is
reset and the frame stays outstanding, the POP that is about to release the staging buffer has copied exactly
that frame into the slot ACTIVE does not name. -/
def Obligations.PopCopiesExactlyThePublishedFrame : Prop :=
  ∀ (n : Nat) (s t : State), s.engineInv = true → s.mem.wf s.cfg = true → s.a.mode = s.b.mode →
    s.a.pos = .publishToggle → Host.Core.run Sys2Proof.core n s = .next t →
    (∀ m u, 1 ≤ m → m ≤ n → Host.Core.run Sys2Proof.core m s = .next u →
      u.a.ready = true ∧ u.b.ready = true ∧ u.frameOutstanding = true) →
    t.b.pos = .popRelease →
    ∀ i, i < s.cfg.frameLen s.a.mode → elem (t.mem.slot (!t.b.active)) i = elem s.mem.staging i

/-- R321, R494: once RUN is accepted, every step leaves it running, busy with opcode 0x0A, or is the assertion of
reset. -/
def Obligations.RunEndsOnlyAtReset : Prop :=
  ∀ s t : State, s.engineInv = true → s.a.running = true → step s = .next t →
    (t.a.running = true ∧ t.a.busy = true ∧ t.a.op = 0x0A) ∨ (t.a.ready = false ∧ t.rstN = false)

/-- R507: a waiting PUBLISH and a waiting POP together are in phase (b) or (d), where a synchroniser's step is
enabled and moves the phase on: neither engine waits for the other. -/
def Obligations.NoStateHasBothEnginesWaitingForEachOther : Prop :=
  ∀ s : State, s.engineInv = true → s.a.ready = true → s.b.ready = true →
    s.a.waitStaging = true → s.b.waitToken = true →
    (s.handshake = some .tokenInFlight ∧ (reqSyncStep s).handshake = some .tokenPending
        ∧ (reqSyncStep s).b.waitToken = false)
    ∨ (s.handshake = some .releaseInFlight ∧ (ackSyncStep s).handshake = some .idle
        ∧ (ackSyncStep s).a.waitStaging = false)

/-- R506 under the model's turns (log 1): when the environment chooses no move, a token in flight is pending in
domain B within one round of the agents. -/
def Obligations.TokenCrossesWithinOneRound : Prop :=
  ∀ s : State, s.engineInv = true → s.a.ready = true → s.b.ready = true → s.sched = [] →
    s.handshake = some .tokenInFlight →
    ∃ k t, k ≤ 9 ∧ Host.Core.run Sys2Proof.core k s = .next t ∧ t.handshake = some .tokenPending
      ∧ t.b.tokenPending = true ∧ t.b.waitToken = false

/-! ## Reset and building -/

/-- R480, R481, R485: from any state whatever, driving `rst_n` to 0 and to 1 and letting both domains leave reset
gives the values of R95, with MODE the strap's level. That the read data is 0 after reset is the model's choice
(log 7). -/
def Obligations.ResetFromAnyStateGivesTheResetValues : Prop :=
  ∀ (s : State) (es : List Event),
    s.sched = .resetPin false :: .resetPin true :: .agent .resetSynchroniserA :: .agent .resetSynchroniserB :: es →
    ∃ t, Host.Core.run Sys2Proof.core 4 s = .next t
      ∧ t.a = DomainA.afterReset (modeOfStrap s.modeStrap) ∧ t.b = DomainB.afterReset (modeOfStrap s.modeStrap)
      ∧ t.mem.staging = List.replicate s.cfg.slotCap 0 ∧ t.mem.slot0 = List.replicate s.cfg.slotCap 0
      ∧ t.mem.slot1 = List.replicate s.cfg.slotCap 0 ∧ t.cfg = s.cfg ∧ t.sched = es
      ∧ t.adcOffered = s.adcOffered

/-- R95, R481: what the registers read right after reset. -/
def Obligations.RegistersReadTheirResetValues : Prop :=
  ∀ (p : Params) (strap : Bool),
    statusA (State.initial p strap).a = (if strap = true then 0x121 else 0x021)
    ∧ statusB (State.initial p strap).b = (if strap = true then 0x101 else 0x001)
    ∧ (State.initial p strap).handshake = some .idle
    ∧ (∀ addr ∈ [0x028, 0x02C, 0x030, 0x034, 0x038, 0x050, 0x054], registerA p (State.initial p strap).a addr = 0)
    ∧ (∀ addr ∈ [0x028, 0x02C, 0x050, 0x054], registerB p (State.initial p strap).b addr = 0)
    ∧ (State.initial p strap).a.cycle = 0 ∧ (State.initial p strap).b.cycle = 0
    ∧ (State.initial p strap).a.tsCap = 0 ∧ (State.initial p strap).a.tsProcS = 0
    ∧ (State.initial p strap).a.tsProcE = 0 ∧ (State.initial p strap).a.adcEn = false
    ∧ (State.initial p strap).a.adcReady = false
    ∧ (State.initial p strap).mem.staging = List.replicate p.slotCap 0
    ∧ (State.initial p strap).mem.slot0 = List.replicate p.slotCap 0
    ∧ (State.initial p strap).mem.slot1 = List.replicate p.slotCap 0

/-- R12, R15, R461: an instance is built exactly from the parameter sets that satisfy every range, and its
CFG_ERR reads 0; from any other set no initial state exists. -/
def Obligations.OnlyValidParameterSetsAreBuilt : Prop :=
  ∀ (q : ParamSet) (strap : Bool),
    ((1 ≤ q.params.adcBits ∧ q.params.adcBits ≤ 16 ∧ q.adcMid = 2 ^ (q.params.adcBits - 1)
        ∧ q.params.q15Shift ≤ 15 ∧ q.params.alphaQ15 ≤ 32768
        ∧ 1 ≤ q.params.rawSamples ∧ q.params.rawSamples ≤ 65535
        ∧ 1 ≤ q.params.decimateN ∧ q.params.decimateN ≤ 65535
        ∧ 1 ≤ q.params.log2Fft ∧ q.params.log2Fft ≤ 15 ∧ q.fftSize = 2 ^ q.params.log2Fft
        ∧ q.downsampled = q.fftSize ∧ 1 ≤ q.params.oscSamples ∧ q.params.oscSamples ≤ 65535
        ∧ 1 ≤ q.params.frameRate ∧ q.params.frameRate ≤ 65535
        ∧ -32768 ≤ q.params.dbMin ∧ q.params.dbMin ≤ q.params.dbMax ∧ q.params.dbMax ≤ 32767
        ∧ (q.params.dbEpsExp = 5 ∨ q.params.dbEpsExp = 6)
        ∧ 2 ≤ q.params.syncStages ∧ q.params.syncStages ≤ 255 ∧ q.trigOffset = 3 ∧ q.trigGain = 10)
      ↔ ∃ s, build q strap = .ok s)
    ∧ (∀ s, build q strap = .ok s → s = State.initial q.params strap ∧ (statusA s.a).getLsbD 7 = false)
    ∧ ((∀ s, build q strap ≠ .ok s) → build q strap = .error .fatalConfiguration)

/-! ## Numerics -/

/-- R266: `dbfun` is the rule's function over the reals, for every 16-bit `m`. -/
def Obligations.DbfunIsTheRuleOverTheReals : Prop :=
  ∀ (p : Params) (m x : Int) (r : Real), p.valid = true → -32768 ≤ m → m ≤ 32767 →
    r = 20 * Real.logb 10 (Real.sqrt (2 * (max m 0 : Int) / 8192) + (1 / 10) ^ p.dbEpsExp) →
    (0 ≤ r → x = ⌊r⌋) → (r < 0 → x = ⌈r⌉) →
    dbfun p m = min p.dbMax (max p.dbMin x)

/-- R267: `dbfun` for the default clamps, as ranges of `m`, for both values of DB_EPS_EXP. -/
def Obligations.DbfunIsTheTableForTheDefaults : Prop :=
  ∀ (p : Params) (m : Int), p.dbMin = -100 → p.dbMax = 0 → (p.dbEpsExp = 5 ∨ p.dbEpsExp = 6) →
    -32768 ≤ m → m ≤ 32767 →
    ∀ lo hi db, (lo, hi, db) ∈ ([(-32768, 0, -100), (1, 1, -36), (2, 2, -33), (3, 3, -31), (4, 4, -30), (5, 5, -29),
      (6, 6, -28), (7, 8, -27), (9, 10, -26), (11, 12, -25), (13, 16, -24), (17, 20, -23), (21, 25, -22),
      (26, 32, -21), (33, 40, -20), (41, 51, -19), (52, 64, -18), (65, 81, -17), (82, 102, -16), (103, 129, -15),
      (130, 163, -14), (164, 205, -13), (206, 258, -12), (259, 325, -11), (326, 409, -10), (410, 515, -9),
      (516, 649, -8), (650, 817, -7), (818, 1028, -6), (1029, 1295, -5), (1296, 1630, -4), (1631, 2052, -3),
      (2053, 2584, -2), (2585, 3253, -1), (3254, 32767, 0)] : List (Int × Int × Int)) →
    lo ≤ m → m ≤ hi → dbfun p m = db

/-- R268: a higher magnitude gives a higher or equal dB value. -/
def Obligations.DbfunIsMonotone : Prop :=
  ∀ (p : Params) (m m' : Int), p.valid = true → -32768 ≤ m → m ≤ m' → m' ≤ 32767 → dbfun p m ≤ dbfun p m'

/-- R240, for every table size up to the default 512: HANN is the rounded raised cosine of exact reals (the larger
sizes: `LargerTablesAreTheRoundedReals`). -/
def Obligations.HannIsTheRoundedRaisedCosine : Prop :=
  ∀ (p : Params) (n : Nat), 1 ≤ p.log2Fft → p.log2Fft ≤ 9 → n < p.fftSize →
    hann p n =
      min 32767 (max 0 ⌊32768 * (0.5 * (1 - Real.cos (2 * Real.pi * n / (p.fftSize - 1 : Real)))) + 1 / 2⌋)

/-- R241, for every table size up to the default 512: TWID is the rounded twiddle factor of exact reals (the larger
sizes: `LargerTablesAreTheRoundedReals`). -/
def Obligations.TwidIsTheRoundedTwiddleFactor : Prop :=
  ∀ (p : Params) (k : Nat), 1 ≤ p.log2Fft → p.log2Fft ≤ 9 → k < p.bins →
    (twid p k).re.toInt =
        max (-32768) (min 32767 ⌊32768 * Real.cos (2 * Real.pi * k / (p.fftSize : Real)) + 1 / 2⌋)
    ∧ (twid p k).im.toInt =
        max (-32768) (min 32767 ⌊-32768 * Real.sin (2 * Real.pi * k / (p.fftSize : Real)) + 1 / 2⌋)

/-- R240, R241, for the table sizes above the default, `LOG2_FFT` 10 to 15 (R12): HANN and TWID are the rounded,
clamped exact reals of the rules there too. -/
def Obligations.LargerTablesAreTheRoundedReals : Prop :=
  ∀ p : Params, 10 ≤ p.log2Fft → p.log2Fft ≤ 15 →
    (∀ n, n < p.fftSize →
      hann p n =
        min 32767 (max 0 ⌊32768 * (0.5 * (1 - Real.cos (2 * Real.pi * n / (p.fftSize - 1 : Real)))) + 1 / 2⌋))
    ∧ (∀ k, k < p.bins →
      (twid p k).re.toInt =
          max (-32768) (min 32767 ⌊32768 * Real.cos (2 * Real.pi * k / (p.fftSize : Real)) + 1 / 2⌋)
      ∧ (twid p k).im.toInt =
          max (-32768) (min 32767 ⌊-32768 * Real.sin (2 * Real.pi * k / (p.fftSize : Real)) + 1 / 2⌋))

/-- R251: bit `i` of the reversal is bit `B-1-i`, and the reversal stays below `2^B`. -/
def Obligations.BitReversalReversesTheBits : Prop :=
  ∀ B n : Nat, n < 2 ^ B →
    bitrev B n < 2 ^ B ∧ (∀ i, i < B → (bitrev B n).testBit i = n.testBit (B - 1 - i))
    ∧ bitrev B (bitrev B n) = n

/-- R210, R211, R246: the IIR's saturation never changes a value and its extreme coefficients pass and stop the
input; WINDOW's result needs no saturation. -/
def Obligations.FilterAndWindowBounds : Prop :=
  (∀ (c y : Int) (alpha : Nat), alpha ≤ 32768 → -32768 ≤ c → c ≤ 32767 → -32768 ≤ y → y ≤ 32767 →
    -2 ^ 30 ≤ c * alpha + y * (32768 - alpha) ∧ c * alpha + y * (32768 - alpha) ≤ 32767 * 2 ^ 15
    ∧ sat16 (asr (c * alpha + y * (32768 - alpha)) 15) = asr (c * alpha + y * (32768 - alpha)) 15)
  ∧ (∀ (p : Params) (prev : Int) (r : Half),
      (p.alphaQ15 = 32768 → iirStep p prev r = centre p r) ∧ (p.alphaQ15 = 0 → iirStep p 0 r = 0))
  ∧ (∀ (p : Params) (n : Nat) (f : Half),
      -32767 ≤ asr (s16 f * hann p n) 15 ∧ asr (s16 f * hann p n) 15 ≤ 32766)
end

