-- ==== Sys2Proof/Laws/State.lean ====
section
/-! SUPPORT. What each named update of the state leaves in each field: one lemma per field per update. -/

namespace Sys2Proof.Machine

/-! ## `raise_a` -/

@[simp] theorem State.raise_a_cfg (s : State) (code : ErrorCode) (opc : BitVec 8) : (s.raise .a code opc).cfg = s.cfg := rfl
@[simp] theorem State.raise_a_rstN (s : State) (code : ErrorCode) (opc : BitVec 8) : (s.raise .a code opc).rstN = s.rstN := rfl
@[simp] theorem State.raise_a_modeStrap (s : State) (code : ErrorCode) (opc : BitVec 8) : (s.raise .a code opc).modeStrap = s.modeStrap := rfl
@[simp] theorem State.raise_a_a_ready (s : State) (code : ErrorCode) (opc : BitVec 8) : (s.raise .a code opc).a.ready = s.a.ready := rfl
@[simp] theorem State.raise_a_a_busy (s : State) (code : ErrorCode) (opc : BitVec 8) : (s.raise .a code opc).a.busy = s.a.busy := rfl
@[simp] theorem State.raise_a_a_running (s : State) (code : ErrorCode) (opc : BitVec 8) : (s.raise .a code opc).a.running = s.a.running := rfl
@[simp] theorem State.raise_a_a_waitAdc (s : State) (code : ErrorCode) (opc : BitVec 8) : (s.raise .a code opc).a.waitAdc = s.a.waitAdc := rfl
@[simp] theorem State.raise_a_a_waitStaging (s : State) (code : ErrorCode) (opc : BitVec 8) : (s.raise .a code opc).a.waitStaging = s.a.waitStaging := rfl
@[simp] theorem State.raise_a_a_mode (s : State) (code : ErrorCode) (opc : BitVec 8) : (s.raise .a code opc).a.mode = s.a.mode := rfl
@[simp] theorem State.raise_a_a_phase (s : State) (code : ErrorCode) (opc : BitVec 8) : (s.raise .a code opc).a.phase = s.a.phase := rfl
@[simp] theorem State.raise_a_a_op (s : State) (code : ErrorCode) (opc : BitVec 8) : (s.raise .a code opc).a.op = s.a.op := rfl
@[simp] theorem State.raise_a_a_err (s : State) (code : ErrorCode) (opc : BitVec 8) : (s.raise .a code opc).a.err = s.a.err.record code opc := rfl
@[simp] theorem State.raise_a_a_filtLen (s : State) (code : ErrorCode) (opc : BitVec 8) : (s.raise .a code opc).a.filtLen = s.a.filtLen := rfl
@[simp] theorem State.raise_a_a_trigPos (s : State) (code : ErrorCode) (opc : BitVec 8) : (s.raise .a code opc).a.trigPos = s.a.trigPos := rfl
@[simp] theorem State.raise_a_a_frameCnt (s : State) (code : ErrorCode) (opc : BitVec 8) : (s.raise .a code opc).a.frameCnt = s.a.frameCnt := rfl
@[simp] theorem State.raise_a_a_pubCnt (s : State) (code : ErrorCode) (opc : BitVec 8) : (s.raise .a code opc).a.pubCnt = s.a.pubCnt := rfl
@[simp] theorem State.raise_a_a_cycle (s : State) (code : ErrorCode) (opc : BitVec 8) : (s.raise .a code opc).a.cycle = s.a.cycle := rfl
@[simp] theorem State.raise_a_a_tsCap (s : State) (code : ErrorCode) (opc : BitVec 8) : (s.raise .a code opc).a.tsCap = s.a.tsCap := rfl
@[simp] theorem State.raise_a_a_tsProcS (s : State) (code : ErrorCode) (opc : BitVec 8) : (s.raise .a code opc).a.tsProcS = s.a.tsProcS := rfl
@[simp] theorem State.raise_a_a_tsProcE (s : State) (code : ErrorCode) (opc : BitVec 8) : (s.raise .a code opc).a.tsProcE = s.a.tsProcE := rfl
@[simp] theorem State.raise_a_a_memSel (s : State) (code : ErrorCode) (opc : BitVec 8) : (s.raise .a code opc).a.memSel = s.a.memSel := rfl
@[simp] theorem State.raise_a_a_memIdx (s : State) (code : ErrorCode) (opc : BitVec 8) : (s.raise .a code opc).a.memIdx = s.a.memIdx := rfl
@[simp] theorem State.raise_a_a_req (s : State) (code : ErrorCode) (opc : BitVec 8) : (s.raise .a code opc).a.req = s.a.req := rfl
@[simp] theorem State.raise_a_a_ackSync (s : State) (code : ErrorCode) (opc : BitVec 8) : (s.raise .a code opc).a.ackSync = s.a.ackSync := rfl
@[simp] theorem State.raise_a_a_adcEn (s : State) (code : ErrorCode) (opc : BitVec 8) : (s.raise .a code opc).a.adcEn = s.a.adcEn := rfl
@[simp] theorem State.raise_a_a_rdata (s : State) (code : ErrorCode) (opc : BitVec 8) : (s.raise .a code opc).a.rdata = s.a.rdata := rfl
@[simp] theorem State.raise_a_a_pos (s : State) (code : ErrorCode) (opc : BitVec 8) : (s.raise .a code opc).a.pos = s.a.pos := rfl
@[simp] theorem State.raise_a_b (s : State) (code : ErrorCode) (opc : BitVec 8) : (s.raise .a code opc).b = s.b := rfl
@[simp] theorem State.raise_a_mem (s : State) (code : ErrorCode) (opc : BitVec 8) : (s.raise .a code opc).mem = s.mem := rfl
@[simp] theorem State.raise_a_adcOffered (s : State) (code : ErrorCode) (opc : BitVec 8) : (s.raise .a code opc).adcOffered = s.adcOffered := rfl
@[simp] theorem State.raise_a_sched (s : State) (code : ErrorCode) (opc : BitVec 8) : (s.raise .a code opc).sched = s.sched := rfl
@[simp] theorem State.raise_a_turn (s : State) (code : ErrorCode) (opc : BitVec 8) : (s.raise .a code opc).turn = s.turn := rfl
@[simp] theorem State.raise_a_draws (s : State) (code : ErrorCode) (opc : BitVec 8) : (s.raise .a code opc).draws = s.draws := rfl

/-! ## `raise_b` -/

@[simp] theorem State.raise_b_cfg (s : State) (code : ErrorCode) (opc : BitVec 8) : (s.raise .b code opc).cfg = s.cfg := rfl
@[simp] theorem State.raise_b_rstN (s : State) (code : ErrorCode) (opc : BitVec 8) : (s.raise .b code opc).rstN = s.rstN := rfl
@[simp] theorem State.raise_b_modeStrap (s : State) (code : ErrorCode) (opc : BitVec 8) : (s.raise .b code opc).modeStrap = s.modeStrap := rfl
@[simp] theorem State.raise_b_a (s : State) (code : ErrorCode) (opc : BitVec 8) : (s.raise .b code opc).a = s.a := rfl
@[simp] theorem State.raise_b_b_ready (s : State) (code : ErrorCode) (opc : BitVec 8) : (s.raise .b code opc).b.ready = s.b.ready := rfl
@[simp] theorem State.raise_b_b_busy (s : State) (code : ErrorCode) (opc : BitVec 8) : (s.raise .b code opc).b.busy = s.b.busy := rfl
@[simp] theorem State.raise_b_b_waitToken (s : State) (code : ErrorCode) (opc : BitVec 8) : (s.raise .b code opc).b.waitToken = s.b.waitToken := rfl
@[simp] theorem State.raise_b_b_fresh (s : State) (code : ErrorCode) (opc : BitVec 8) : (s.raise .b code opc).b.fresh = s.b.fresh := rfl
@[simp] theorem State.raise_b_b_active (s : State) (code : ErrorCode) (opc : BitVec 8) : (s.raise .b code opc).b.active = s.b.active := rfl
@[simp] theorem State.raise_b_b_mode (s : State) (code : ErrorCode) (opc : BitVec 8) : (s.raise .b code opc).b.mode = s.b.mode := rfl
@[simp] theorem State.raise_b_b_op (s : State) (code : ErrorCode) (opc : BitVec 8) : (s.raise .b code opc).b.op = s.b.op := rfl
@[simp] theorem State.raise_b_b_err (s : State) (code : ErrorCode) (opc : BitVec 8) : (s.raise .b code opc).b.err = s.b.err.record code opc := rfl
@[simp] theorem State.raise_b_b_popCnt (s : State) (code : ErrorCode) (opc : BitVec 8) : (s.raise .b code opc).b.popCnt = s.b.popCnt := rfl
@[simp] theorem State.raise_b_b_cycle (s : State) (code : ErrorCode) (opc : BitVec 8) : (s.raise .b code opc).b.cycle = s.b.cycle := rfl
@[simp] theorem State.raise_b_b_rdSel (s : State) (code : ErrorCode) (opc : BitVec 8) : (s.raise .b code opc).b.rdSel = s.b.rdSel := rfl
@[simp] theorem State.raise_b_b_rdIdx (s : State) (code : ErrorCode) (opc : BitVec 8) : (s.raise .b code opc).b.rdIdx = s.b.rdIdx := rfl
@[simp] theorem State.raise_b_b_ack (s : State) (code : ErrorCode) (opc : BitVec 8) : (s.raise .b code opc).b.ack = s.b.ack := rfl
@[simp] theorem State.raise_b_b_reqSync (s : State) (code : ErrorCode) (opc : BitVec 8) : (s.raise .b code opc).b.reqSync = s.b.reqSync := rfl
@[simp] theorem State.raise_b_b_rdata (s : State) (code : ErrorCode) (opc : BitVec 8) : (s.raise .b code opc).b.rdata = s.b.rdata := rfl
@[simp] theorem State.raise_b_b_pos (s : State) (code : ErrorCode) (opc : BitVec 8) : (s.raise .b code opc).b.pos = s.b.pos := rfl
@[simp] theorem State.raise_b_mem (s : State) (code : ErrorCode) (opc : BitVec 8) : (s.raise .b code opc).mem = s.mem := rfl
@[simp] theorem State.raise_b_adcOffered (s : State) (code : ErrorCode) (opc : BitVec 8) : (s.raise .b code opc).adcOffered = s.adcOffered := rfl
@[simp] theorem State.raise_b_sched (s : State) (code : ErrorCode) (opc : BitVec 8) : (s.raise .b code opc).sched = s.sched := rfl
@[simp] theorem State.raise_b_turn (s : State) (code : ErrorCode) (opc : BitVec 8) : (s.raise .b code opc).turn = s.turn := rfl
@[simp] theorem State.raise_b_draws (s : State) (code : ErrorCode) (opc : BitVec 8) : (s.raise .b code opc).draws = s.draws := rfl

/-! ## `clearError_a` -/

@[simp] theorem State.clearError_a_cfg (s : State) : (s.clearError .a).cfg = s.cfg := rfl
@[simp] theorem State.clearError_a_rstN (s : State) : (s.clearError .a).rstN = s.rstN := rfl
@[simp] theorem State.clearError_a_modeStrap (s : State) : (s.clearError .a).modeStrap = s.modeStrap := rfl
@[simp] theorem State.clearError_a_a_ready (s : State) : (s.clearError .a).a.ready = s.a.ready := rfl
@[simp] theorem State.clearError_a_a_busy (s : State) : (s.clearError .a).a.busy = s.a.busy := rfl
@[simp] theorem State.clearError_a_a_running (s : State) : (s.clearError .a).a.running = s.a.running := rfl
@[simp] theorem State.clearError_a_a_waitAdc (s : State) : (s.clearError .a).a.waitAdc = s.a.waitAdc := rfl
@[simp] theorem State.clearError_a_a_waitStaging (s : State) : (s.clearError .a).a.waitStaging = s.a.waitStaging := rfl
@[simp] theorem State.clearError_a_a_mode (s : State) : (s.clearError .a).a.mode = s.a.mode := rfl
@[simp] theorem State.clearError_a_a_phase (s : State) : (s.clearError .a).a.phase = s.a.phase := rfl
@[simp] theorem State.clearError_a_a_op (s : State) : (s.clearError .a).a.op = s.a.op := rfl
@[simp] theorem State.clearError_a_a_err (s : State) : (s.clearError .a).a.err = ErrorRecord.none := rfl
@[simp] theorem State.clearError_a_a_filtLen (s : State) : (s.clearError .a).a.filtLen = s.a.filtLen := rfl
@[simp] theorem State.clearError_a_a_trigPos (s : State) : (s.clearError .a).a.trigPos = s.a.trigPos := rfl
@[simp] theorem State.clearError_a_a_frameCnt (s : State) : (s.clearError .a).a.frameCnt = s.a.frameCnt := rfl
@[simp] theorem State.clearError_a_a_pubCnt (s : State) : (s.clearError .a).a.pubCnt = s.a.pubCnt := rfl
@[simp] theorem State.clearError_a_a_cycle (s : State) : (s.clearError .a).a.cycle = s.a.cycle := rfl
@[simp] theorem State.clearError_a_a_tsCap (s : State) : (s.clearError .a).a.tsCap = s.a.tsCap := rfl
@[simp] theorem State.clearError_a_a_tsProcS (s : State) : (s.clearError .a).a.tsProcS = s.a.tsProcS := rfl
@[simp] theorem State.clearError_a_a_tsProcE (s : State) : (s.clearError .a).a.tsProcE = s.a.tsProcE := rfl
@[simp] theorem State.clearError_a_a_memSel (s : State) : (s.clearError .a).a.memSel = s.a.memSel := rfl
@[simp] theorem State.clearError_a_a_memIdx (s : State) : (s.clearError .a).a.memIdx = s.a.memIdx := rfl
@[simp] theorem State.clearError_a_a_req (s : State) : (s.clearError .a).a.req = s.a.req := rfl
@[simp] theorem State.clearError_a_a_ackSync (s : State) : (s.clearError .a).a.ackSync = s.a.ackSync := rfl
@[simp] theorem State.clearError_a_a_adcEn (s : State) : (s.clearError .a).a.adcEn = s.a.adcEn := rfl
@[simp] theorem State.clearError_a_a_rdata (s : State) : (s.clearError .a).a.rdata = s.a.rdata := rfl
@[simp] theorem State.clearError_a_a_pos (s : State) : (s.clearError .a).a.pos = s.a.pos := rfl
@[simp] theorem State.clearError_a_b (s : State) : (s.clearError .a).b = s.b := rfl
@[simp] theorem State.clearError_a_mem (s : State) : (s.clearError .a).mem = s.mem := rfl
@[simp] theorem State.clearError_a_adcOffered (s : State) : (s.clearError .a).adcOffered = s.adcOffered := rfl
@[simp] theorem State.clearError_a_sched (s : State) : (s.clearError .a).sched = s.sched := rfl
@[simp] theorem State.clearError_a_turn (s : State) : (s.clearError .a).turn = s.turn := rfl
@[simp] theorem State.clearError_a_draws (s : State) : (s.clearError .a).draws = s.draws := rfl

/-! ## `clearError_b` -/

@[simp] theorem State.clearError_b_cfg (s : State) : (s.clearError .b).cfg = s.cfg := rfl
@[simp] theorem State.clearError_b_rstN (s : State) : (s.clearError .b).rstN = s.rstN := rfl
@[simp] theorem State.clearError_b_modeStrap (s : State) : (s.clearError .b).modeStrap = s.modeStrap := rfl
@[simp] theorem State.clearError_b_a (s : State) : (s.clearError .b).a = s.a := rfl
@[simp] theorem State.clearError_b_b_ready (s : State) : (s.clearError .b).b.ready = s.b.ready := rfl
@[simp] theorem State.clearError_b_b_busy (s : State) : (s.clearError .b).b.busy = s.b.busy := rfl
@[simp] theorem State.clearError_b_b_waitToken (s : State) : (s.clearError .b).b.waitToken = s.b.waitToken := rfl
@[simp] theorem State.clearError_b_b_fresh (s : State) : (s.clearError .b).b.fresh = s.b.fresh := rfl
@[simp] theorem State.clearError_b_b_active (s : State) : (s.clearError .b).b.active = s.b.active := rfl
@[simp] theorem State.clearError_b_b_mode (s : State) : (s.clearError .b).b.mode = s.b.mode := rfl
@[simp] theorem State.clearError_b_b_op (s : State) : (s.clearError .b).b.op = s.b.op := rfl
@[simp] theorem State.clearError_b_b_err (s : State) : (s.clearError .b).b.err = ErrorRecord.none := rfl
@[simp] theorem State.clearError_b_b_popCnt (s : State) : (s.clearError .b).b.popCnt = s.b.popCnt := rfl
@[simp] theorem State.clearError_b_b_cycle (s : State) : (s.clearError .b).b.cycle = s.b.cycle := rfl
@[simp] theorem State.clearError_b_b_rdSel (s : State) : (s.clearError .b).b.rdSel = s.b.rdSel := rfl
@[simp] theorem State.clearError_b_b_rdIdx (s : State) : (s.clearError .b).b.rdIdx = s.b.rdIdx := rfl
@[simp] theorem State.clearError_b_b_ack (s : State) : (s.clearError .b).b.ack = s.b.ack := rfl
@[simp] theorem State.clearError_b_b_reqSync (s : State) : (s.clearError .b).b.reqSync = s.b.reqSync := rfl
@[simp] theorem State.clearError_b_b_rdata (s : State) : (s.clearError .b).b.rdata = s.b.rdata := rfl
@[simp] theorem State.clearError_b_b_pos (s : State) : (s.clearError .b).b.pos = s.b.pos := rfl
@[simp] theorem State.clearError_b_mem (s : State) : (s.clearError .b).mem = s.mem := rfl
@[simp] theorem State.clearError_b_adcOffered (s : State) : (s.clearError .b).adcOffered = s.adcOffered := rfl
@[simp] theorem State.clearError_b_sched (s : State) : (s.clearError .b).sched = s.sched := rfl
@[simp] theorem State.clearError_b_turn (s : State) : (s.clearError .b).turn = s.turn := rfl
@[simp] theorem State.clearError_b_draws (s : State) : (s.clearError .b).draws = s.draws := rfl

/-! ## `answerA` -/

@[simp] theorem State.answerA_cfg (s : State) (r : Word) : (s.answerA r).cfg = s.cfg := rfl
@[simp] theorem State.answerA_rstN (s : State) (r : Word) : (s.answerA r).rstN = s.rstN := rfl
@[simp] theorem State.answerA_modeStrap (s : State) (r : Word) : (s.answerA r).modeStrap = s.modeStrap := rfl
@[simp] theorem State.answerA_a_ready (s : State) (r : Word) : (s.answerA r).a.ready = s.a.ready := rfl
@[simp] theorem State.answerA_a_busy (s : State) (r : Word) : (s.answerA r).a.busy = s.a.busy := rfl
@[simp] theorem State.answerA_a_running (s : State) (r : Word) : (s.answerA r).a.running = s.a.running := rfl
@[simp] theorem State.answerA_a_waitAdc (s : State) (r : Word) : (s.answerA r).a.waitAdc = s.a.waitAdc := rfl
@[simp] theorem State.answerA_a_waitStaging (s : State) (r : Word) : (s.answerA r).a.waitStaging = s.a.waitStaging := rfl
@[simp] theorem State.answerA_a_mode (s : State) (r : Word) : (s.answerA r).a.mode = s.a.mode := rfl
@[simp] theorem State.answerA_a_phase (s : State) (r : Word) : (s.answerA r).a.phase = s.a.phase := rfl
@[simp] theorem State.answerA_a_op (s : State) (r : Word) : (s.answerA r).a.op = s.a.op := rfl
@[simp] theorem State.answerA_a_err (s : State) (r : Word) : (s.answerA r).a.err = s.a.err := rfl
@[simp] theorem State.answerA_a_filtLen (s : State) (r : Word) : (s.answerA r).a.filtLen = s.a.filtLen := rfl
@[simp] theorem State.answerA_a_trigPos (s : State) (r : Word) : (s.answerA r).a.trigPos = s.a.trigPos := rfl
@[simp] theorem State.answerA_a_frameCnt (s : State) (r : Word) : (s.answerA r).a.frameCnt = s.a.frameCnt := rfl
@[simp] theorem State.answerA_a_pubCnt (s : State) (r : Word) : (s.answerA r).a.pubCnt = s.a.pubCnt := rfl
@[simp] theorem State.answerA_a_cycle (s : State) (r : Word) : (s.answerA r).a.cycle = s.a.cycle := rfl
@[simp] theorem State.answerA_a_tsCap (s : State) (r : Word) : (s.answerA r).a.tsCap = s.a.tsCap := rfl
@[simp] theorem State.answerA_a_tsProcS (s : State) (r : Word) : (s.answerA r).a.tsProcS = s.a.tsProcS := rfl
@[simp] theorem State.answerA_a_tsProcE (s : State) (r : Word) : (s.answerA r).a.tsProcE = s.a.tsProcE := rfl
@[simp] theorem State.answerA_a_memSel (s : State) (r : Word) : (s.answerA r).a.memSel = s.a.memSel := rfl
@[simp] theorem State.answerA_a_memIdx (s : State) (r : Word) : (s.answerA r).a.memIdx = s.a.memIdx := rfl
@[simp] theorem State.answerA_a_req (s : State) (r : Word) : (s.answerA r).a.req = s.a.req := rfl
@[simp] theorem State.answerA_a_ackSync (s : State) (r : Word) : (s.answerA r).a.ackSync = s.a.ackSync := rfl
@[simp] theorem State.answerA_a_adcEn (s : State) (r : Word) : (s.answerA r).a.adcEn = s.a.adcEn := rfl
@[simp] theorem State.answerA_a_rdata (s : State) (r : Word) : (s.answerA r).a.rdata = r := rfl
@[simp] theorem State.answerA_a_pos (s : State) (r : Word) : (s.answerA r).a.pos = s.a.pos := rfl
@[simp] theorem State.answerA_b (s : State) (r : Word) : (s.answerA r).b = s.b := rfl
@[simp] theorem State.answerA_mem (s : State) (r : Word) : (s.answerA r).mem = s.mem := rfl
@[simp] theorem State.answerA_adcOffered (s : State) (r : Word) : (s.answerA r).adcOffered = s.adcOffered := rfl
@[simp] theorem State.answerA_sched (s : State) (r : Word) : (s.answerA r).sched = s.sched := rfl
@[simp] theorem State.answerA_turn (s : State) (r : Word) : (s.answerA r).turn = s.turn := rfl
@[simp] theorem State.answerA_draws (s : State) (r : Word) : (s.answerA r).draws = s.draws := rfl

/-! ## `answerB` -/

@[simp] theorem State.answerB_cfg (s : State) (r : Word) : (s.answerB r).cfg = s.cfg := rfl
@[simp] theorem State.answerB_rstN (s : State) (r : Word) : (s.answerB r).rstN = s.rstN := rfl
@[simp] theorem State.answerB_modeStrap (s : State) (r : Word) : (s.answerB r).modeStrap = s.modeStrap := rfl
@[simp] theorem State.answerB_a (s : State) (r : Word) : (s.answerB r).a = s.a := rfl
@[simp] theorem State.answerB_b_ready (s : State) (r : Word) : (s.answerB r).b.ready = s.b.ready := rfl
@[simp] theorem State.answerB_b_busy (s : State) (r : Word) : (s.answerB r).b.busy = s.b.busy := rfl
@[simp] theorem State.answerB_b_waitToken (s : State) (r : Word) : (s.answerB r).b.waitToken = s.b.waitToken := rfl
@[simp] theorem State.answerB_b_fresh (s : State) (r : Word) : (s.answerB r).b.fresh = s.b.fresh := rfl
@[simp] theorem State.answerB_b_active (s : State) (r : Word) : (s.answerB r).b.active = s.b.active := rfl
@[simp] theorem State.answerB_b_mode (s : State) (r : Word) : (s.answerB r).b.mode = s.b.mode := rfl
@[simp] theorem State.answerB_b_op (s : State) (r : Word) : (s.answerB r).b.op = s.b.op := rfl
@[simp] theorem State.answerB_b_err (s : State) (r : Word) : (s.answerB r).b.err = s.b.err := rfl
@[simp] theorem State.answerB_b_popCnt (s : State) (r : Word) : (s.answerB r).b.popCnt = s.b.popCnt := rfl
@[simp] theorem State.answerB_b_cycle (s : State) (r : Word) : (s.answerB r).b.cycle = s.b.cycle := rfl
@[simp] theorem State.answerB_b_rdSel (s : State) (r : Word) : (s.answerB r).b.rdSel = s.b.rdSel := rfl
@[simp] theorem State.answerB_b_rdIdx (s : State) (r : Word) : (s.answerB r).b.rdIdx = s.b.rdIdx := rfl
@[simp] theorem State.answerB_b_ack (s : State) (r : Word) : (s.answerB r).b.ack = s.b.ack := rfl
@[simp] theorem State.answerB_b_reqSync (s : State) (r : Word) : (s.answerB r).b.reqSync = s.b.reqSync := rfl
@[simp] theorem State.answerB_b_rdata (s : State) (r : Word) : (s.answerB r).b.rdata = r := rfl
@[simp] theorem State.answerB_b_pos (s : State) (r : Word) : (s.answerB r).b.pos = s.b.pos := rfl
@[simp] theorem State.answerB_mem (s : State) (r : Word) : (s.answerB r).mem = s.mem := rfl
@[simp] theorem State.answerB_adcOffered (s : State) (r : Word) : (s.answerB r).adcOffered = s.adcOffered := rfl
@[simp] theorem State.answerB_sched (s : State) (r : Word) : (s.answerB r).sched = s.sched := rfl
@[simp] theorem State.answerB_turn (s : State) (r : Word) : (s.answerB r).turn = s.turn := rfl
@[simp] theorem State.answerB_draws (s : State) (r : Word) : (s.answerB r).draws = s.draws := rfl

/-! ## `beginPhase` -/

@[simp] theorem State.beginPhase_cfg (s : State) (ph : Phase) : (s.beginPhase ph).cfg = s.cfg := rfl
@[simp] theorem State.beginPhase_rstN (s : State) (ph : Phase) : (s.beginPhase ph).rstN = s.rstN := rfl
@[simp] theorem State.beginPhase_modeStrap (s : State) (ph : Phase) : (s.beginPhase ph).modeStrap = s.modeStrap := rfl
@[simp] theorem State.beginPhase_a_ready (s : State) (ph : Phase) : (s.beginPhase ph).a.ready = s.a.ready := rfl
@[simp] theorem State.beginPhase_a_busy (s : State) (ph : Phase) : (s.beginPhase ph).a.busy = s.a.busy := rfl
@[simp] theorem State.beginPhase_a_running (s : State) (ph : Phase) : (s.beginPhase ph).a.running = s.a.running := rfl
@[simp] theorem State.beginPhase_a_waitAdc (s : State) (ph : Phase) : (s.beginPhase ph).a.waitAdc = s.a.waitAdc := rfl
@[simp] theorem State.beginPhase_a_waitStaging (s : State) (ph : Phase) : (s.beginPhase ph).a.waitStaging = s.a.waitStaging := rfl
@[simp] theorem State.beginPhase_a_mode (s : State) (ph : Phase) : (s.beginPhase ph).a.mode = s.a.mode := rfl
@[simp] theorem State.beginPhase_a_phase (s : State) (ph : Phase) : (s.beginPhase ph).a.phase = ph := rfl
@[simp] theorem State.beginPhase_a_op (s : State) (ph : Phase) : (s.beginPhase ph).a.op = s.a.op := rfl
@[simp] theorem State.beginPhase_a_err (s : State) (ph : Phase) : (s.beginPhase ph).a.err = s.a.err := rfl
@[simp] theorem State.beginPhase_a_filtLen (s : State) (ph : Phase) : (s.beginPhase ph).a.filtLen = s.a.filtLen := rfl
@[simp] theorem State.beginPhase_a_trigPos (s : State) (ph : Phase) : (s.beginPhase ph).a.trigPos = s.a.trigPos := rfl
@[simp] theorem State.beginPhase_a_frameCnt (s : State) (ph : Phase) : (s.beginPhase ph).a.frameCnt = s.a.frameCnt := rfl
@[simp] theorem State.beginPhase_a_pubCnt (s : State) (ph : Phase) : (s.beginPhase ph).a.pubCnt = s.a.pubCnt := rfl
@[simp] theorem State.beginPhase_a_cycle (s : State) (ph : Phase) : (s.beginPhase ph).a.cycle = s.a.cycle := rfl
@[simp] theorem State.beginPhase_a_tsCap (s : State) (ph : Phase) : (s.beginPhase ph).a.tsCap = if ph = .capturing then s.a.cycle else s.a.tsCap := rfl
@[simp] theorem State.beginPhase_a_tsProcS (s : State) (ph : Phase) : (s.beginPhase ph).a.tsProcS = if ph = .processing then s.a.cycle else s.a.tsProcS := rfl
@[simp] theorem State.beginPhase_a_tsProcE (s : State) (ph : Phase) : (s.beginPhase ph).a.tsProcE = s.a.tsProcE := rfl
@[simp] theorem State.beginPhase_a_memSel (s : State) (ph : Phase) : (s.beginPhase ph).a.memSel = s.a.memSel := rfl
@[simp] theorem State.beginPhase_a_memIdx (s : State) (ph : Phase) : (s.beginPhase ph).a.memIdx = s.a.memIdx := rfl
@[simp] theorem State.beginPhase_a_req (s : State) (ph : Phase) : (s.beginPhase ph).a.req = s.a.req := rfl
@[simp] theorem State.beginPhase_a_ackSync (s : State) (ph : Phase) : (s.beginPhase ph).a.ackSync = s.a.ackSync := rfl
@[simp] theorem State.beginPhase_a_adcEn (s : State) (ph : Phase) : (s.beginPhase ph).a.adcEn = s.a.adcEn := rfl
@[simp] theorem State.beginPhase_a_rdata (s : State) (ph : Phase) : (s.beginPhase ph).a.rdata = s.a.rdata := rfl
@[simp] theorem State.beginPhase_a_pos (s : State) (ph : Phase) : (s.beginPhase ph).a.pos = s.a.pos := rfl
@[simp] theorem State.beginPhase_b (s : State) (ph : Phase) : (s.beginPhase ph).b = s.b := rfl
@[simp] theorem State.beginPhase_mem (s : State) (ph : Phase) : (s.beginPhase ph).mem = s.mem := rfl
@[simp] theorem State.beginPhase_adcOffered (s : State) (ph : Phase) : (s.beginPhase ph).adcOffered = s.adcOffered := rfl
@[simp] theorem State.beginPhase_sched (s : State) (ph : Phase) : (s.beginPhase ph).sched = s.sched := rfl
@[simp] theorem State.beginPhase_turn (s : State) (ph : Phase) : (s.beginPhase ph).turn = s.turn := rfl
@[simp] theorem State.beginPhase_draws (s : State) (ph : Phase) : (s.beginPhase ph).draws = s.draws := rfl

/-! ## `endPhase` -/

@[simp] theorem State.endPhase_cfg (s : State) (ph : Phase) : (s.endPhase ph).cfg = s.cfg := rfl
@[simp] theorem State.endPhase_rstN (s : State) (ph : Phase) : (s.endPhase ph).rstN = s.rstN := rfl
@[simp] theorem State.endPhase_modeStrap (s : State) (ph : Phase) : (s.endPhase ph).modeStrap = s.modeStrap := rfl
@[simp] theorem State.endPhase_a_ready (s : State) (ph : Phase) : (s.endPhase ph).a.ready = s.a.ready := rfl
@[simp] theorem State.endPhase_a_busy (s : State) (ph : Phase) : (s.endPhase ph).a.busy = s.a.busy := rfl
@[simp] theorem State.endPhase_a_running (s : State) (ph : Phase) : (s.endPhase ph).a.running = s.a.running := rfl
@[simp] theorem State.endPhase_a_waitAdc (s : State) (ph : Phase) : (s.endPhase ph).a.waitAdc = s.a.waitAdc := rfl
@[simp] theorem State.endPhase_a_waitStaging (s : State) (ph : Phase) : (s.endPhase ph).a.waitStaging = s.a.waitStaging := rfl
@[simp] theorem State.endPhase_a_mode (s : State) (ph : Phase) : (s.endPhase ph).a.mode = s.a.mode := rfl
@[simp] theorem State.endPhase_a_phase (s : State) (ph : Phase) : (s.endPhase ph).a.phase = .idle := rfl
@[simp] theorem State.endPhase_a_op (s : State) (ph : Phase) : (s.endPhase ph).a.op = s.a.op := rfl
@[simp] theorem State.endPhase_a_err (s : State) (ph : Phase) : (s.endPhase ph).a.err = s.a.err := rfl
@[simp] theorem State.endPhase_a_filtLen (s : State) (ph : Phase) : (s.endPhase ph).a.filtLen = s.a.filtLen := rfl
@[simp] theorem State.endPhase_a_trigPos (s : State) (ph : Phase) : (s.endPhase ph).a.trigPos = s.a.trigPos := rfl
@[simp] theorem State.endPhase_a_frameCnt (s : State) (ph : Phase) : (s.endPhase ph).a.frameCnt = s.a.frameCnt := rfl
@[simp] theorem State.endPhase_a_pubCnt (s : State) (ph : Phase) : (s.endPhase ph).a.pubCnt = s.a.pubCnt := rfl
@[simp] theorem State.endPhase_a_cycle (s : State) (ph : Phase) : (s.endPhase ph).a.cycle = s.a.cycle := rfl
@[simp] theorem State.endPhase_a_tsCap (s : State) (ph : Phase) : (s.endPhase ph).a.tsCap = s.a.tsCap := rfl
@[simp] theorem State.endPhase_a_tsProcS (s : State) (ph : Phase) : (s.endPhase ph).a.tsProcS = s.a.tsProcS := rfl
@[simp] theorem State.endPhase_a_tsProcE (s : State) (ph : Phase) : (s.endPhase ph).a.tsProcE = if ph = .processing then s.a.cycle else s.a.tsProcE := rfl
@[simp] theorem State.endPhase_a_memSel (s : State) (ph : Phase) : (s.endPhase ph).a.memSel = s.a.memSel := rfl
@[simp] theorem State.endPhase_a_memIdx (s : State) (ph : Phase) : (s.endPhase ph).a.memIdx = s.a.memIdx := rfl
@[simp] theorem State.endPhase_a_req (s : State) (ph : Phase) : (s.endPhase ph).a.req = s.a.req := rfl
@[simp] theorem State.endPhase_a_ackSync (s : State) (ph : Phase) : (s.endPhase ph).a.ackSync = s.a.ackSync := rfl
@[simp] theorem State.endPhase_a_adcEn (s : State) (ph : Phase) : (s.endPhase ph).a.adcEn = s.a.adcEn := rfl
@[simp] theorem State.endPhase_a_rdata (s : State) (ph : Phase) : (s.endPhase ph).a.rdata = s.a.rdata := rfl
@[simp] theorem State.endPhase_a_pos (s : State) (ph : Phase) : (s.endPhase ph).a.pos = s.a.pos := rfl
@[simp] theorem State.endPhase_b (s : State) (ph : Phase) : (s.endPhase ph).b = s.b := rfl
@[simp] theorem State.endPhase_mem (s : State) (ph : Phase) : (s.endPhase ph).mem = s.mem := rfl
@[simp] theorem State.endPhase_adcOffered (s : State) (ph : Phase) : (s.endPhase ph).adcOffered = s.adcOffered := rfl
@[simp] theorem State.endPhase_sched (s : State) (ph : Phase) : (s.endPhase ph).sched = s.sched := rfl
@[simp] theorem State.endPhase_turn (s : State) (ph : Phase) : (s.endPhase ph).turn = s.turn := rfl
@[simp] theorem State.endPhase_draws (s : State) (ph : Phase) : (s.endPhase ph).draws = s.draws := rfl

/-! ## `setPos` -/

@[simp] theorem State.setPos_cfg (s : State) (pos : ProducerPos) : (s.setPos pos).cfg = s.cfg := rfl
@[simp] theorem State.setPos_rstN (s : State) (pos : ProducerPos) : (s.setPos pos).rstN = s.rstN := rfl
@[simp] theorem State.setPos_modeStrap (s : State) (pos : ProducerPos) : (s.setPos pos).modeStrap = s.modeStrap := rfl
@[simp] theorem State.setPos_a_ready (s : State) (pos : ProducerPos) : (s.setPos pos).a.ready = s.a.ready := rfl
@[simp] theorem State.setPos_a_busy (s : State) (pos : ProducerPos) : (s.setPos pos).a.busy = s.a.busy := rfl
@[simp] theorem State.setPos_a_running (s : State) (pos : ProducerPos) : (s.setPos pos).a.running = s.a.running := rfl
@[simp] theorem State.setPos_a_waitAdc (s : State) (pos : ProducerPos) : (s.setPos pos).a.waitAdc = s.a.waitAdc := rfl
@[simp] theorem State.setPos_a_waitStaging (s : State) (pos : ProducerPos) : (s.setPos pos).a.waitStaging = s.a.waitStaging := rfl
@[simp] theorem State.setPos_a_mode (s : State) (pos : ProducerPos) : (s.setPos pos).a.mode = s.a.mode := rfl
@[simp] theorem State.setPos_a_phase (s : State) (pos : ProducerPos) : (s.setPos pos).a.phase = s.a.phase := rfl
@[simp] theorem State.setPos_a_op (s : State) (pos : ProducerPos) : (s.setPos pos).a.op = s.a.op := rfl
@[simp] theorem State.setPos_a_err (s : State) (pos : ProducerPos) : (s.setPos pos).a.err = s.a.err := rfl
@[simp] theorem State.setPos_a_filtLen (s : State) (pos : ProducerPos) : (s.setPos pos).a.filtLen = s.a.filtLen := rfl
@[simp] theorem State.setPos_a_trigPos (s : State) (pos : ProducerPos) : (s.setPos pos).a.trigPos = s.a.trigPos := rfl
@[simp] theorem State.setPos_a_frameCnt (s : State) (pos : ProducerPos) : (s.setPos pos).a.frameCnt = s.a.frameCnt := rfl
@[simp] theorem State.setPos_a_pubCnt (s : State) (pos : ProducerPos) : (s.setPos pos).a.pubCnt = s.a.pubCnt := rfl
@[simp] theorem State.setPos_a_cycle (s : State) (pos : ProducerPos) : (s.setPos pos).a.cycle = s.a.cycle := rfl
@[simp] theorem State.setPos_a_tsCap (s : State) (pos : ProducerPos) : (s.setPos pos).a.tsCap = s.a.tsCap := rfl
@[simp] theorem State.setPos_a_tsProcS (s : State) (pos : ProducerPos) : (s.setPos pos).a.tsProcS = s.a.tsProcS := rfl
@[simp] theorem State.setPos_a_tsProcE (s : State) (pos : ProducerPos) : (s.setPos pos).a.tsProcE = s.a.tsProcE := rfl
@[simp] theorem State.setPos_a_memSel (s : State) (pos : ProducerPos) : (s.setPos pos).a.memSel = s.a.memSel := rfl
@[simp] theorem State.setPos_a_memIdx (s : State) (pos : ProducerPos) : (s.setPos pos).a.memIdx = s.a.memIdx := rfl
@[simp] theorem State.setPos_a_req (s : State) (pos : ProducerPos) : (s.setPos pos).a.req = s.a.req := rfl
@[simp] theorem State.setPos_a_ackSync (s : State) (pos : ProducerPos) : (s.setPos pos).a.ackSync = s.a.ackSync := rfl
@[simp] theorem State.setPos_a_adcEn (s : State) (pos : ProducerPos) : (s.setPos pos).a.adcEn = s.a.adcEn := rfl
@[simp] theorem State.setPos_a_rdata (s : State) (pos : ProducerPos) : (s.setPos pos).a.rdata = s.a.rdata := rfl
@[simp] theorem State.setPos_a_pos (s : State) (pos : ProducerPos) : (s.setPos pos).a.pos = pos := rfl
@[simp] theorem State.setPos_b (s : State) (pos : ProducerPos) : (s.setPos pos).b = s.b := rfl
@[simp] theorem State.setPos_mem (s : State) (pos : ProducerPos) : (s.setPos pos).mem = s.mem := rfl
@[simp] theorem State.setPos_adcOffered (s : State) (pos : ProducerPos) : (s.setPos pos).adcOffered = s.adcOffered := rfl
@[simp] theorem State.setPos_sched (s : State) (pos : ProducerPos) : (s.setPos pos).sched = s.sched := rfl
@[simp] theorem State.setPos_turn (s : State) (pos : ProducerPos) : (s.setPos pos).turn = s.turn := rfl
@[simp] theorem State.setPos_draws (s : State) (pos : ProducerPos) : (s.setPos pos).draws = s.draws := rfl

/-! ## `completeA` -/

@[simp] theorem State.completeA_cfg (s : State) : s.completeA.cfg = s.cfg := rfl
@[simp] theorem State.completeA_rstN (s : State) : s.completeA.rstN = s.rstN := rfl
@[simp] theorem State.completeA_modeStrap (s : State) : s.completeA.modeStrap = s.modeStrap := rfl
@[simp] theorem State.completeA_a_ready (s : State) : s.completeA.a.ready = s.a.ready := rfl
@[simp] theorem State.completeA_a_busy (s : State) : s.completeA.a.busy = false := rfl
@[simp] theorem State.completeA_a_running (s : State) : s.completeA.a.running = s.a.running := rfl
@[simp] theorem State.completeA_a_waitAdc (s : State) : s.completeA.a.waitAdc = s.a.waitAdc := rfl
@[simp] theorem State.completeA_a_waitStaging (s : State) : s.completeA.a.waitStaging = s.a.waitStaging := rfl
@[simp] theorem State.completeA_a_mode (s : State) : s.completeA.a.mode = s.a.mode := rfl
@[simp] theorem State.completeA_a_phase (s : State) : s.completeA.a.phase = s.a.phase := rfl
@[simp] theorem State.completeA_a_op (s : State) : s.completeA.a.op = 0 := rfl
@[simp] theorem State.completeA_a_err (s : State) : s.completeA.a.err = s.a.err := rfl
@[simp] theorem State.completeA_a_filtLen (s : State) : s.completeA.a.filtLen = s.a.filtLen := rfl
@[simp] theorem State.completeA_a_trigPos (s : State) : s.completeA.a.trigPos = s.a.trigPos := rfl
@[simp] theorem State.completeA_a_frameCnt (s : State) : s.completeA.a.frameCnt = s.a.frameCnt := rfl
@[simp] theorem State.completeA_a_pubCnt (s : State) : s.completeA.a.pubCnt = s.a.pubCnt := rfl
@[simp] theorem State.completeA_a_cycle (s : State) : s.completeA.a.cycle = s.a.cycle := rfl
@[simp] theorem State.completeA_a_tsCap (s : State) : s.completeA.a.tsCap = s.a.tsCap := rfl
@[simp] theorem State.completeA_a_tsProcS (s : State) : s.completeA.a.tsProcS = s.a.tsProcS := rfl
@[simp] theorem State.completeA_a_tsProcE (s : State) : s.completeA.a.tsProcE = s.a.tsProcE := rfl
@[simp] theorem State.completeA_a_memSel (s : State) : s.completeA.a.memSel = s.a.memSel := rfl
@[simp] theorem State.completeA_a_memIdx (s : State) : s.completeA.a.memIdx = s.a.memIdx := rfl
@[simp] theorem State.completeA_a_req (s : State) : s.completeA.a.req = s.a.req := rfl
@[simp] theorem State.completeA_a_ackSync (s : State) : s.completeA.a.ackSync = s.a.ackSync := rfl
@[simp] theorem State.completeA_a_adcEn (s : State) : s.completeA.a.adcEn = s.a.adcEn := rfl
@[simp] theorem State.completeA_a_rdata (s : State) : s.completeA.a.rdata = s.a.rdata := rfl
@[simp] theorem State.completeA_a_pos (s : State) : s.completeA.a.pos = .idle := rfl
@[simp] theorem State.completeA_b (s : State) : s.completeA.b = s.b := rfl
@[simp] theorem State.completeA_mem (s : State) : s.completeA.mem = s.mem := rfl
@[simp] theorem State.completeA_adcOffered (s : State) : s.completeA.adcOffered = s.adcOffered := rfl
@[simp] theorem State.completeA_sched (s : State) : s.completeA.sched = s.sched := rfl
@[simp] theorem State.completeA_turn (s : State) : s.completeA.turn = s.turn := rfl
@[simp] theorem State.completeA_draws (s : State) : s.completeA.draws = s.draws := rfl

/-! ## `acceptA` -/

@[simp] theorem State.acceptA_cfg (s : State) (op : BitVec 8) (ph : Phase) : (s.acceptA op ph).cfg = s.cfg := rfl
@[simp] theorem State.acceptA_rstN (s : State) (op : BitVec 8) (ph : Phase) : (s.acceptA op ph).rstN = s.rstN := rfl
@[simp] theorem State.acceptA_modeStrap (s : State) (op : BitVec 8) (ph : Phase) : (s.acceptA op ph).modeStrap = s.modeStrap := rfl
@[simp] theorem State.acceptA_a_ready (s : State) (op : BitVec 8) (ph : Phase) : (s.acceptA op ph).a.ready = s.a.ready := rfl
@[simp] theorem State.acceptA_a_busy (s : State) (op : BitVec 8) (ph : Phase) : (s.acceptA op ph).a.busy = true := rfl
@[simp] theorem State.acceptA_a_running (s : State) (op : BitVec 8) (ph : Phase) : (s.acceptA op ph).a.running = s.a.running := rfl
@[simp] theorem State.acceptA_a_waitAdc (s : State) (op : BitVec 8) (ph : Phase) : (s.acceptA op ph).a.waitAdc = s.a.waitAdc := rfl
@[simp] theorem State.acceptA_a_waitStaging (s : State) (op : BitVec 8) (ph : Phase) : (s.acceptA op ph).a.waitStaging = s.a.waitStaging := rfl
@[simp] theorem State.acceptA_a_mode (s : State) (op : BitVec 8) (ph : Phase) : (s.acceptA op ph).a.mode = s.a.mode := rfl
@[simp] theorem State.acceptA_a_phase (s : State) (op : BitVec 8) (ph : Phase) : (s.acceptA op ph).a.phase = s.a.phase := rfl
@[simp] theorem State.acceptA_a_op (s : State) (op : BitVec 8) (ph : Phase) : (s.acceptA op ph).a.op = op := rfl
@[simp] theorem State.acceptA_a_err (s : State) (op : BitVec 8) (ph : Phase) : (s.acceptA op ph).a.err = s.a.err := rfl
@[simp] theorem State.acceptA_a_filtLen (s : State) (op : BitVec 8) (ph : Phase) : (s.acceptA op ph).a.filtLen = s.a.filtLen := rfl
@[simp] theorem State.acceptA_a_trigPos (s : State) (op : BitVec 8) (ph : Phase) : (s.acceptA op ph).a.trigPos = s.a.trigPos := rfl
@[simp] theorem State.acceptA_a_frameCnt (s : State) (op : BitVec 8) (ph : Phase) : (s.acceptA op ph).a.frameCnt = s.a.frameCnt := rfl
@[simp] theorem State.acceptA_a_pubCnt (s : State) (op : BitVec 8) (ph : Phase) : (s.acceptA op ph).a.pubCnt = s.a.pubCnt := rfl
@[simp] theorem State.acceptA_a_cycle (s : State) (op : BitVec 8) (ph : Phase) : (s.acceptA op ph).a.cycle = s.a.cycle := rfl
@[simp] theorem State.acceptA_a_tsCap (s : State) (op : BitVec 8) (ph : Phase) : (s.acceptA op ph).a.tsCap = s.a.tsCap := rfl
@[simp] theorem State.acceptA_a_tsProcS (s : State) (op : BitVec 8) (ph : Phase) : (s.acceptA op ph).a.tsProcS = s.a.tsProcS := rfl
@[simp] theorem State.acceptA_a_tsProcE (s : State) (op : BitVec 8) (ph : Phase) : (s.acceptA op ph).a.tsProcE = s.a.tsProcE := rfl
@[simp] theorem State.acceptA_a_memSel (s : State) (op : BitVec 8) (ph : Phase) : (s.acceptA op ph).a.memSel = s.a.memSel := rfl
@[simp] theorem State.acceptA_a_memIdx (s : State) (op : BitVec 8) (ph : Phase) : (s.acceptA op ph).a.memIdx = s.a.memIdx := rfl
@[simp] theorem State.acceptA_a_req (s : State) (op : BitVec 8) (ph : Phase) : (s.acceptA op ph).a.req = s.a.req := rfl
@[simp] theorem State.acceptA_a_ackSync (s : State) (op : BitVec 8) (ph : Phase) : (s.acceptA op ph).a.ackSync = s.a.ackSync := rfl
@[simp] theorem State.acceptA_a_adcEn (s : State) (op : BitVec 8) (ph : Phase) : (s.acceptA op ph).a.adcEn = s.a.adcEn := rfl
@[simp] theorem State.acceptA_a_rdata (s : State) (op : BitVec 8) (ph : Phase) : (s.acceptA op ph).a.rdata = s.a.rdata := rfl
@[simp] theorem State.acceptA_a_pos (s : State) (op : BitVec 8) (ph : Phase) : (s.acceptA op ph).a.pos = .starting ph := rfl
@[simp] theorem State.acceptA_b (s : State) (op : BitVec 8) (ph : Phase) : (s.acceptA op ph).b = s.b := rfl
@[simp] theorem State.acceptA_mem (s : State) (op : BitVec 8) (ph : Phase) : (s.acceptA op ph).mem = s.mem := rfl
@[simp] theorem State.acceptA_adcOffered (s : State) (op : BitVec 8) (ph : Phase) : (s.acceptA op ph).adcOffered = s.adcOffered := rfl
@[simp] theorem State.acceptA_sched (s : State) (op : BitVec 8) (ph : Phase) : (s.acceptA op ph).sched = s.sched := rfl
@[simp] theorem State.acceptA_turn (s : State) (op : BitVec 8) (ph : Phase) : (s.acceptA op ph).turn = s.turn := rfl
@[simp] theorem State.acceptA_draws (s : State) (op : BitVec 8) (ph : Phase) : (s.acceptA op ph).draws = s.draws := rfl

/-! ## `acceptRun` -/

@[simp] theorem State.acceptRun_cfg (s : State) : s.acceptRun.cfg = s.cfg := rfl
@[simp] theorem State.acceptRun_rstN (s : State) : s.acceptRun.rstN = s.rstN := rfl
@[simp] theorem State.acceptRun_modeStrap (s : State) : s.acceptRun.modeStrap = s.modeStrap := rfl
@[simp] theorem State.acceptRun_a_ready (s : State) : s.acceptRun.a.ready = s.a.ready := rfl
@[simp] theorem State.acceptRun_a_busy (s : State) : s.acceptRun.a.busy = true := rfl
@[simp] theorem State.acceptRun_a_running (s : State) : s.acceptRun.a.running = true := rfl
@[simp] theorem State.acceptRun_a_waitAdc (s : State) : s.acceptRun.a.waitAdc = s.a.waitAdc := rfl
@[simp] theorem State.acceptRun_a_waitStaging (s : State) : s.acceptRun.a.waitStaging = s.a.waitStaging := rfl
@[simp] theorem State.acceptRun_a_mode (s : State) : s.acceptRun.a.mode = s.a.mode := rfl
@[simp] theorem State.acceptRun_a_phase (s : State) : s.acceptRun.a.phase = s.a.phase := rfl
@[simp] theorem State.acceptRun_a_op (s : State) : s.acceptRun.a.op = opRun := rfl
@[simp] theorem State.acceptRun_a_err (s : State) : s.acceptRun.a.err = s.a.err := rfl
@[simp] theorem State.acceptRun_a_filtLen (s : State) : s.acceptRun.a.filtLen = s.a.filtLen := rfl
@[simp] theorem State.acceptRun_a_trigPos (s : State) : s.acceptRun.a.trigPos = s.a.trigPos := rfl
@[simp] theorem State.acceptRun_a_frameCnt (s : State) : s.acceptRun.a.frameCnt = s.a.frameCnt := rfl
@[simp] theorem State.acceptRun_a_pubCnt (s : State) : s.acceptRun.a.pubCnt = s.a.pubCnt := rfl
@[simp] theorem State.acceptRun_a_cycle (s : State) : s.acceptRun.a.cycle = s.a.cycle := rfl
@[simp] theorem State.acceptRun_a_tsCap (s : State) : s.acceptRun.a.tsCap = s.a.tsCap := rfl
@[simp] theorem State.acceptRun_a_tsProcS (s : State) : s.acceptRun.a.tsProcS = s.a.tsProcS := rfl
@[simp] theorem State.acceptRun_a_tsProcE (s : State) : s.acceptRun.a.tsProcE = s.a.tsProcE := rfl
@[simp] theorem State.acceptRun_a_memSel (s : State) : s.acceptRun.a.memSel = s.a.memSel := rfl
@[simp] theorem State.acceptRun_a_memIdx (s : State) : s.acceptRun.a.memIdx = s.a.memIdx := rfl
@[simp] theorem State.acceptRun_a_req (s : State) : s.acceptRun.a.req = s.a.req := rfl
@[simp] theorem State.acceptRun_a_ackSync (s : State) : s.acceptRun.a.ackSync = s.a.ackSync := rfl
@[simp] theorem State.acceptRun_a_adcEn (s : State) : s.acceptRun.a.adcEn = s.a.adcEn := rfl
@[simp] theorem State.acceptRun_a_rdata (s : State) : s.acceptRun.a.rdata = s.a.rdata := rfl
@[simp] theorem State.acceptRun_a_pos (s : State) : s.acceptRun.a.pos = .starting .capturing := rfl
@[simp] theorem State.acceptRun_b (s : State) : s.acceptRun.b = s.b := rfl
@[simp] theorem State.acceptRun_mem (s : State) : s.acceptRun.mem = s.mem := rfl
@[simp] theorem State.acceptRun_adcOffered (s : State) : s.acceptRun.adcOffered = s.adcOffered := rfl
@[simp] theorem State.acceptRun_sched (s : State) : s.acceptRun.sched = s.sched := rfl
@[simp] theorem State.acceptRun_turn (s : State) : s.acceptRun.turn = s.turn := rfl
@[simp] theorem State.acceptRun_draws (s : State) : s.acceptRun.draws = s.draws := rfl

/-! ## `holdAdc` -/

@[simp] theorem State.holdAdc_cfg (s : State) : s.holdAdc.cfg = s.cfg := rfl
@[simp] theorem State.holdAdc_rstN (s : State) : s.holdAdc.rstN = s.rstN := rfl
@[simp] theorem State.holdAdc_modeStrap (s : State) : s.holdAdc.modeStrap = s.modeStrap := rfl
@[simp] theorem State.holdAdc_a_ready (s : State) : s.holdAdc.a.ready = s.a.ready := rfl
@[simp] theorem State.holdAdc_a_busy (s : State) : s.holdAdc.a.busy = s.a.busy := rfl
@[simp] theorem State.holdAdc_a_running (s : State) : s.holdAdc.a.running = s.a.running := rfl
@[simp] theorem State.holdAdc_a_waitAdc (s : State) : s.holdAdc.a.waitAdc = true := rfl
@[simp] theorem State.holdAdc_a_waitStaging (s : State) : s.holdAdc.a.waitStaging = s.a.waitStaging := rfl
@[simp] theorem State.holdAdc_a_mode (s : State) : s.holdAdc.a.mode = s.a.mode := rfl
@[simp] theorem State.holdAdc_a_phase (s : State) : s.holdAdc.a.phase = s.a.phase := rfl
@[simp] theorem State.holdAdc_a_op (s : State) : s.holdAdc.a.op = s.a.op := rfl
@[simp] theorem State.holdAdc_a_err (s : State) : s.holdAdc.a.err = s.a.err := rfl
@[simp] theorem State.holdAdc_a_filtLen (s : State) : s.holdAdc.a.filtLen = s.a.filtLen := rfl
@[simp] theorem State.holdAdc_a_trigPos (s : State) : s.holdAdc.a.trigPos = s.a.trigPos := rfl
@[simp] theorem State.holdAdc_a_frameCnt (s : State) : s.holdAdc.a.frameCnt = s.a.frameCnt := rfl
@[simp] theorem State.holdAdc_a_pubCnt (s : State) : s.holdAdc.a.pubCnt = s.a.pubCnt := rfl
@[simp] theorem State.holdAdc_a_cycle (s : State) : s.holdAdc.a.cycle = s.a.cycle := rfl
@[simp] theorem State.holdAdc_a_tsCap (s : State) : s.holdAdc.a.tsCap = s.a.tsCap := rfl
@[simp] theorem State.holdAdc_a_tsProcS (s : State) : s.holdAdc.a.tsProcS = s.a.tsProcS := rfl
@[simp] theorem State.holdAdc_a_tsProcE (s : State) : s.holdAdc.a.tsProcE = s.a.tsProcE := rfl
@[simp] theorem State.holdAdc_a_memSel (s : State) : s.holdAdc.a.memSel = s.a.memSel := rfl
@[simp] theorem State.holdAdc_a_memIdx (s : State) : s.holdAdc.a.memIdx = s.a.memIdx := rfl
@[simp] theorem State.holdAdc_a_req (s : State) : s.holdAdc.a.req = s.a.req := rfl
@[simp] theorem State.holdAdc_a_ackSync (s : State) : s.holdAdc.a.ackSync = s.a.ackSync := rfl
@[simp] theorem State.holdAdc_a_adcEn (s : State) : s.holdAdc.a.adcEn = s.a.adcEn := rfl
@[simp] theorem State.holdAdc_a_rdata (s : State) : s.holdAdc.a.rdata = s.a.rdata := rfl
@[simp] theorem State.holdAdc_a_pos (s : State) : s.holdAdc.a.pos = s.a.pos := rfl
@[simp] theorem State.holdAdc_b (s : State) : s.holdAdc.b = s.b := rfl
@[simp] theorem State.holdAdc_mem (s : State) : s.holdAdc.mem = s.mem := rfl
@[simp] theorem State.holdAdc_adcOffered (s : State) : s.holdAdc.adcOffered = s.adcOffered := rfl
@[simp] theorem State.holdAdc_sched (s : State) : s.holdAdc.sched = s.sched := rfl
@[simp] theorem State.holdAdc_turn (s : State) : s.holdAdc.turn = s.turn := rfl
@[simp] theorem State.holdAdc_draws (s : State) : s.holdAdc.draws = s.draws := rfl

/-! ## `advanceMemIdx` -/

@[simp] theorem State.advanceMemIdx_cfg (s : State) : s.advanceMemIdx.cfg = s.cfg := rfl
@[simp] theorem State.advanceMemIdx_rstN (s : State) : s.advanceMemIdx.rstN = s.rstN := rfl
@[simp] theorem State.advanceMemIdx_modeStrap (s : State) : s.advanceMemIdx.modeStrap = s.modeStrap := rfl
@[simp] theorem State.advanceMemIdx_a_ready (s : State) : s.advanceMemIdx.a.ready = s.a.ready := rfl
@[simp] theorem State.advanceMemIdx_a_busy (s : State) : s.advanceMemIdx.a.busy = s.a.busy := rfl
@[simp] theorem State.advanceMemIdx_a_running (s : State) : s.advanceMemIdx.a.running = s.a.running := rfl
@[simp] theorem State.advanceMemIdx_a_waitAdc (s : State) : s.advanceMemIdx.a.waitAdc = s.a.waitAdc := rfl
@[simp] theorem State.advanceMemIdx_a_waitStaging (s : State) : s.advanceMemIdx.a.waitStaging = s.a.waitStaging := rfl
@[simp] theorem State.advanceMemIdx_a_mode (s : State) : s.advanceMemIdx.a.mode = s.a.mode := rfl
@[simp] theorem State.advanceMemIdx_a_phase (s : State) : s.advanceMemIdx.a.phase = s.a.phase := rfl
@[simp] theorem State.advanceMemIdx_a_op (s : State) : s.advanceMemIdx.a.op = s.a.op := rfl
@[simp] theorem State.advanceMemIdx_a_err (s : State) : s.advanceMemIdx.a.err = s.a.err := rfl
@[simp] theorem State.advanceMemIdx_a_filtLen (s : State) : s.advanceMemIdx.a.filtLen = s.a.filtLen := rfl
@[simp] theorem State.advanceMemIdx_a_trigPos (s : State) : s.advanceMemIdx.a.trigPos = s.a.trigPos := rfl
@[simp] theorem State.advanceMemIdx_a_frameCnt (s : State) : s.advanceMemIdx.a.frameCnt = s.a.frameCnt := rfl
@[simp] theorem State.advanceMemIdx_a_pubCnt (s : State) : s.advanceMemIdx.a.pubCnt = s.a.pubCnt := rfl
@[simp] theorem State.advanceMemIdx_a_cycle (s : State) : s.advanceMemIdx.a.cycle = s.a.cycle := rfl
@[simp] theorem State.advanceMemIdx_a_tsCap (s : State) : s.advanceMemIdx.a.tsCap = s.a.tsCap := rfl
@[simp] theorem State.advanceMemIdx_a_tsProcS (s : State) : s.advanceMemIdx.a.tsProcS = s.a.tsProcS := rfl
@[simp] theorem State.advanceMemIdx_a_tsProcE (s : State) : s.advanceMemIdx.a.tsProcE = s.a.tsProcE := rfl
@[simp] theorem State.advanceMemIdx_a_memSel (s : State) : s.advanceMemIdx.a.memSel = s.a.memSel := rfl
@[simp] theorem State.advanceMemIdx_a_memIdx (s : State) : s.advanceMemIdx.a.memIdx = s.a.memIdx + 1 := rfl
@[simp] theorem State.advanceMemIdx_a_req (s : State) : s.advanceMemIdx.a.req = s.a.req := rfl
@[simp] theorem State.advanceMemIdx_a_ackSync (s : State) : s.advanceMemIdx.a.ackSync = s.a.ackSync := rfl
@[simp] theorem State.advanceMemIdx_a_adcEn (s : State) : s.advanceMemIdx.a.adcEn = s.a.adcEn := rfl
@[simp] theorem State.advanceMemIdx_a_rdata (s : State) : s.advanceMemIdx.a.rdata = s.a.rdata := rfl
@[simp] theorem State.advanceMemIdx_a_pos (s : State) : s.advanceMemIdx.a.pos = s.a.pos := rfl
@[simp] theorem State.advanceMemIdx_b (s : State) : s.advanceMemIdx.b = s.b := rfl
@[simp] theorem State.advanceMemIdx_mem (s : State) : s.advanceMemIdx.mem = s.mem := rfl
@[simp] theorem State.advanceMemIdx_adcOffered (s : State) : s.advanceMemIdx.adcOffered = s.adcOffered := rfl
@[simp] theorem State.advanceMemIdx_sched (s : State) : s.advanceMemIdx.sched = s.sched := rfl
@[simp] theorem State.advanceMemIdx_turn (s : State) : s.advanceMemIdx.turn = s.turn := rfl
@[simp] theorem State.advanceMemIdx_draws (s : State) : s.advanceMemIdx.draws = s.draws := rfl

/-! ## `advanceRdIdx` -/

@[simp] theorem State.advanceRdIdx_cfg (s : State) : s.advanceRdIdx.cfg = s.cfg := rfl
@[simp] theorem State.advanceRdIdx_rstN (s : State) : s.advanceRdIdx.rstN = s.rstN := rfl
@[simp] theorem State.advanceRdIdx_modeStrap (s : State) : s.advanceRdIdx.modeStrap = s.modeStrap := rfl
@[simp] theorem State.advanceRdIdx_a (s : State) : s.advanceRdIdx.a = s.a := rfl
@[simp] theorem State.advanceRdIdx_b_ready (s : State) : s.advanceRdIdx.b.ready = s.b.ready := rfl
@[simp] theorem State.advanceRdIdx_b_busy (s : State) : s.advanceRdIdx.b.busy = s.b.busy := rfl
@[simp] theorem State.advanceRdIdx_b_waitToken (s : State) : s.advanceRdIdx.b.waitToken = s.b.waitToken := rfl
@[simp] theorem State.advanceRdIdx_b_fresh (s : State) : s.advanceRdIdx.b.fresh = s.b.fresh := rfl
@[simp] theorem State.advanceRdIdx_b_active (s : State) : s.advanceRdIdx.b.active = s.b.active := rfl
@[simp] theorem State.advanceRdIdx_b_mode (s : State) : s.advanceRdIdx.b.mode = s.b.mode := rfl
@[simp] theorem State.advanceRdIdx_b_op (s : State) : s.advanceRdIdx.b.op = s.b.op := rfl
@[simp] theorem State.advanceRdIdx_b_err (s : State) : s.advanceRdIdx.b.err = s.b.err := rfl
@[simp] theorem State.advanceRdIdx_b_popCnt (s : State) : s.advanceRdIdx.b.popCnt = s.b.popCnt := rfl
@[simp] theorem State.advanceRdIdx_b_cycle (s : State) : s.advanceRdIdx.b.cycle = s.b.cycle := rfl
@[simp] theorem State.advanceRdIdx_b_rdSel (s : State) : s.advanceRdIdx.b.rdSel = s.b.rdSel := rfl
@[simp] theorem State.advanceRdIdx_b_rdIdx (s : State) : s.advanceRdIdx.b.rdIdx = s.b.rdIdx + 1 := rfl
@[simp] theorem State.advanceRdIdx_b_ack (s : State) : s.advanceRdIdx.b.ack = s.b.ack := rfl
@[simp] theorem State.advanceRdIdx_b_reqSync (s : State) : s.advanceRdIdx.b.reqSync = s.b.reqSync := rfl
@[simp] theorem State.advanceRdIdx_b_rdata (s : State) : s.advanceRdIdx.b.rdata = s.b.rdata := rfl
@[simp] theorem State.advanceRdIdx_b_pos (s : State) : s.advanceRdIdx.b.pos = s.b.pos := rfl
@[simp] theorem State.advanceRdIdx_mem (s : State) : s.advanceRdIdx.mem = s.mem := rfl
@[simp] theorem State.advanceRdIdx_adcOffered (s : State) : s.advanceRdIdx.adcOffered = s.adcOffered := rfl
@[simp] theorem State.advanceRdIdx_sched (s : State) : s.advanceRdIdx.sched = s.sched := rfl
@[simp] theorem State.advanceRdIdx_turn (s : State) : s.advanceRdIdx.turn = s.turn := rfl
@[simp] theorem State.advanceRdIdx_draws (s : State) : s.advanceRdIdx.draws = s.draws := rfl

/-! ## `setPosB` -/

@[simp] theorem State.setPosB_cfg (s : State) (pos : ConsumerPos) : (s.setPosB pos).cfg = s.cfg := rfl
@[simp] theorem State.setPosB_rstN (s : State) (pos : ConsumerPos) : (s.setPosB pos).rstN = s.rstN := rfl
@[simp] theorem State.setPosB_modeStrap (s : State) (pos : ConsumerPos) : (s.setPosB pos).modeStrap = s.modeStrap := rfl
@[simp] theorem State.setPosB_a (s : State) (pos : ConsumerPos) : (s.setPosB pos).a = s.a := rfl
@[simp] theorem State.setPosB_b_ready (s : State) (pos : ConsumerPos) : (s.setPosB pos).b.ready = s.b.ready := rfl
@[simp] theorem State.setPosB_b_busy (s : State) (pos : ConsumerPos) : (s.setPosB pos).b.busy = s.b.busy := rfl
@[simp] theorem State.setPosB_b_waitToken (s : State) (pos : ConsumerPos) : (s.setPosB pos).b.waitToken = s.b.waitToken := rfl
@[simp] theorem State.setPosB_b_fresh (s : State) (pos : ConsumerPos) : (s.setPosB pos).b.fresh = s.b.fresh := rfl
@[simp] theorem State.setPosB_b_active (s : State) (pos : ConsumerPos) : (s.setPosB pos).b.active = s.b.active := rfl
@[simp] theorem State.setPosB_b_mode (s : State) (pos : ConsumerPos) : (s.setPosB pos).b.mode = s.b.mode := rfl
@[simp] theorem State.setPosB_b_op (s : State) (pos : ConsumerPos) : (s.setPosB pos).b.op = s.b.op := rfl
@[simp] theorem State.setPosB_b_err (s : State) (pos : ConsumerPos) : (s.setPosB pos).b.err = s.b.err := rfl
@[simp] theorem State.setPosB_b_popCnt (s : State) (pos : ConsumerPos) : (s.setPosB pos).b.popCnt = s.b.popCnt := rfl
@[simp] theorem State.setPosB_b_cycle (s : State) (pos : ConsumerPos) : (s.setPosB pos).b.cycle = s.b.cycle := rfl
@[simp] theorem State.setPosB_b_rdSel (s : State) (pos : ConsumerPos) : (s.setPosB pos).b.rdSel = s.b.rdSel := rfl
@[simp] theorem State.setPosB_b_rdIdx (s : State) (pos : ConsumerPos) : (s.setPosB pos).b.rdIdx = s.b.rdIdx := rfl
@[simp] theorem State.setPosB_b_ack (s : State) (pos : ConsumerPos) : (s.setPosB pos).b.ack = s.b.ack := rfl
@[simp] theorem State.setPosB_b_reqSync (s : State) (pos : ConsumerPos) : (s.setPosB pos).b.reqSync = s.b.reqSync := rfl
@[simp] theorem State.setPosB_b_rdata (s : State) (pos : ConsumerPos) : (s.setPosB pos).b.rdata = s.b.rdata := rfl
@[simp] theorem State.setPosB_b_pos (s : State) (pos : ConsumerPos) : (s.setPosB pos).b.pos = pos := rfl
@[simp] theorem State.setPosB_mem (s : State) (pos : ConsumerPos) : (s.setPosB pos).mem = s.mem := rfl
@[simp] theorem State.setPosB_adcOffered (s : State) (pos : ConsumerPos) : (s.setPosB pos).adcOffered = s.adcOffered := rfl
@[simp] theorem State.setPosB_sched (s : State) (pos : ConsumerPos) : (s.setPosB pos).sched = s.sched := rfl
@[simp] theorem State.setPosB_turn (s : State) (pos : ConsumerPos) : (s.setPosB pos).turn = s.turn := rfl
@[simp] theorem State.setPosB_draws (s : State) (pos : ConsumerPos) : (s.setPosB pos).draws = s.draws := rfl

/-! ## `acceptPop` -/

@[simp] theorem State.acceptPop_cfg (s : State) : s.acceptPop.cfg = s.cfg := rfl
@[simp] theorem State.acceptPop_rstN (s : State) : s.acceptPop.rstN = s.rstN := rfl
@[simp] theorem State.acceptPop_modeStrap (s : State) : s.acceptPop.modeStrap = s.modeStrap := rfl
@[simp] theorem State.acceptPop_a (s : State) : s.acceptPop.a = s.a := rfl
@[simp] theorem State.acceptPop_b_ready (s : State) : s.acceptPop.b.ready = s.b.ready := rfl
@[simp] theorem State.acceptPop_b_busy (s : State) : s.acceptPop.b.busy = true := rfl
@[simp] theorem State.acceptPop_b_waitToken (s : State) : s.acceptPop.b.waitToken = s.b.waitToken := rfl
@[simp] theorem State.acceptPop_b_fresh (s : State) : s.acceptPop.b.fresh = s.b.fresh := rfl
@[simp] theorem State.acceptPop_b_active (s : State) : s.acceptPop.b.active = s.b.active := rfl
@[simp] theorem State.acceptPop_b_mode (s : State) : s.acceptPop.b.mode = s.b.mode := rfl
@[simp] theorem State.acceptPop_b_op (s : State) : s.acceptPop.b.op = 1 := rfl
@[simp] theorem State.acceptPop_b_err (s : State) : s.acceptPop.b.err = s.b.err := rfl
@[simp] theorem State.acceptPop_b_popCnt (s : State) : s.acceptPop.b.popCnt = s.b.popCnt := rfl
@[simp] theorem State.acceptPop_b_cycle (s : State) : s.acceptPop.b.cycle = s.b.cycle := rfl
@[simp] theorem State.acceptPop_b_rdSel (s : State) : s.acceptPop.b.rdSel = s.b.rdSel := rfl
@[simp] theorem State.acceptPop_b_rdIdx (s : State) : s.acceptPop.b.rdIdx = s.b.rdIdx := rfl
@[simp] theorem State.acceptPop_b_ack (s : State) : s.acceptPop.b.ack = s.b.ack := rfl
@[simp] theorem State.acceptPop_b_reqSync (s : State) : s.acceptPop.b.reqSync = s.b.reqSync := rfl
@[simp] theorem State.acceptPop_b_rdata (s : State) : s.acceptPop.b.rdata = s.b.rdata := rfl
@[simp] theorem State.acceptPop_b_pos (s : State) : s.acceptPop.b.pos = .pop := rfl
@[simp] theorem State.acceptPop_mem (s : State) : s.acceptPop.mem = s.mem := rfl
@[simp] theorem State.acceptPop_adcOffered (s : State) : s.acceptPop.adcOffered = s.adcOffered := rfl
@[simp] theorem State.acceptPop_sched (s : State) : s.acceptPop.sched = s.sched := rfl
@[simp] theorem State.acceptPop_turn (s : State) : s.acceptPop.turn = s.turn := rfl
@[simp] theorem State.acceptPop_draws (s : State) : s.acceptPop.draws = s.draws := rfl

/-! ## `swapBody` -/

@[simp] theorem State.swapBody_cfg (s : State) : s.swapBody.cfg = s.cfg := rfl
@[simp] theorem State.swapBody_rstN (s : State) : s.swapBody.rstN = s.rstN := rfl
@[simp] theorem State.swapBody_modeStrap (s : State) : s.swapBody.modeStrap = s.modeStrap := rfl
@[simp] theorem State.swapBody_a (s : State) : s.swapBody.a = s.a := rfl
@[simp] theorem State.swapBody_b_ready (s : State) : s.swapBody.b.ready = s.b.ready := rfl
@[simp] theorem State.swapBody_b_busy (s : State) : s.swapBody.b.busy = s.b.busy := rfl
@[simp] theorem State.swapBody_b_waitToken (s : State) : s.swapBody.b.waitToken = s.b.waitToken := rfl
@[simp] theorem State.swapBody_b_fresh (s : State) : s.swapBody.b.fresh = false := rfl
@[simp] theorem State.swapBody_b_active (s : State) : s.swapBody.b.active = !s.b.active := rfl
@[simp] theorem State.swapBody_b_mode (s : State) : s.swapBody.b.mode = s.b.mode := rfl
@[simp] theorem State.swapBody_b_op (s : State) : s.swapBody.b.op = s.b.op := rfl
@[simp] theorem State.swapBody_b_err (s : State) : s.swapBody.b.err = s.b.err := rfl
@[simp] theorem State.swapBody_b_popCnt (s : State) : s.swapBody.b.popCnt = s.b.popCnt := rfl
@[simp] theorem State.swapBody_b_cycle (s : State) : s.swapBody.b.cycle = s.b.cycle := rfl
@[simp] theorem State.swapBody_b_rdSel (s : State) : s.swapBody.b.rdSel = s.b.rdSel := rfl
@[simp] theorem State.swapBody_b_rdIdx (s : State) : s.swapBody.b.rdIdx = s.b.rdIdx := rfl
@[simp] theorem State.swapBody_b_ack (s : State) : s.swapBody.b.ack = s.b.ack := rfl
@[simp] theorem State.swapBody_b_reqSync (s : State) : s.swapBody.b.reqSync = s.b.reqSync := rfl
@[simp] theorem State.swapBody_b_rdata (s : State) : s.swapBody.b.rdata = s.b.rdata := rfl
@[simp] theorem State.swapBody_b_pos (s : State) : s.swapBody.b.pos = s.b.pos := rfl
@[simp] theorem State.swapBody_mem (s : State) : s.swapBody.mem = s.mem := rfl
@[simp] theorem State.swapBody_adcOffered (s : State) : s.swapBody.adcOffered = s.adcOffered := rfl
@[simp] theorem State.swapBody_sched (s : State) : s.swapBody.sched = s.sched := rfl
@[simp] theorem State.swapBody_turn (s : State) : s.swapBody.turn = s.turn := rfl
@[simp] theorem State.swapBody_draws (s : State) : s.swapBody.draws = s.draws := rfl

/-! ## `popEnd` -/

@[simp] theorem State.popEnd_cfg (s : State) : s.popEnd.cfg = s.cfg := rfl
@[simp] theorem State.popEnd_rstN (s : State) : s.popEnd.rstN = s.rstN := rfl
@[simp] theorem State.popEnd_modeStrap (s : State) : s.popEnd.modeStrap = s.modeStrap := rfl
@[simp] theorem State.popEnd_a (s : State) : s.popEnd.a = s.a := rfl
@[simp] theorem State.popEnd_b_ready (s : State) : s.popEnd.b.ready = s.b.ready := rfl
@[simp] theorem State.popEnd_b_busy (s : State) : s.popEnd.b.busy = false := rfl
@[simp] theorem State.popEnd_b_waitToken (s : State) : s.popEnd.b.waitToken = s.b.waitToken := rfl
@[simp] theorem State.popEnd_b_fresh (s : State) : s.popEnd.b.fresh = true := rfl
@[simp] theorem State.popEnd_b_active (s : State) : s.popEnd.b.active = s.b.active := rfl
@[simp] theorem State.popEnd_b_mode (s : State) : s.popEnd.b.mode = s.b.mode := rfl
@[simp] theorem State.popEnd_b_op (s : State) : s.popEnd.b.op = 0 := rfl
@[simp] theorem State.popEnd_b_err (s : State) : s.popEnd.b.err = s.b.err := rfl
@[simp] theorem State.popEnd_b_popCnt (s : State) : s.popEnd.b.popCnt = s.b.popCnt + 1 := rfl
@[simp] theorem State.popEnd_b_cycle (s : State) : s.popEnd.b.cycle = s.b.cycle := rfl
@[simp] theorem State.popEnd_b_rdSel (s : State) : s.popEnd.b.rdSel = s.b.rdSel := rfl
@[simp] theorem State.popEnd_b_rdIdx (s : State) : s.popEnd.b.rdIdx = s.b.rdIdx := rfl
@[simp] theorem State.popEnd_b_ack (s : State) : s.popEnd.b.ack = !s.b.ack := rfl
@[simp] theorem State.popEnd_b_reqSync (s : State) : s.popEnd.b.reqSync = s.b.reqSync := rfl
@[simp] theorem State.popEnd_b_rdata (s : State) : s.popEnd.b.rdata = s.b.rdata := rfl
@[simp] theorem State.popEnd_b_pos (s : State) : s.popEnd.b.pos = .idle := rfl
@[simp] theorem State.popEnd_mem (s : State) : s.popEnd.mem = s.mem := rfl
@[simp] theorem State.popEnd_adcOffered (s : State) : s.popEnd.adcOffered = s.adcOffered := rfl
@[simp] theorem State.popEnd_sched (s : State) : s.popEnd.sched = s.sched := rfl
@[simp] theorem State.popEnd_turn (s : State) : s.popEnd.turn = s.turn := rfl
@[simp] theorem State.popEnd_draws (s : State) : s.popEnd.draws = s.draws := rfl

/-! ## `publishCopy` -/

@[simp] theorem State.publishCopy_cfg (s : State) : s.publishCopy.cfg = s.cfg := rfl
@[simp] theorem State.publishCopy_rstN (s : State) : s.publishCopy.rstN = s.rstN := rfl
@[simp] theorem State.publishCopy_modeStrap (s : State) : s.publishCopy.modeStrap = s.modeStrap := rfl
@[simp] theorem State.publishCopy_a_ready (s : State) : s.publishCopy.a.ready = s.a.ready := rfl
@[simp] theorem State.publishCopy_a_busy (s : State) : s.publishCopy.a.busy = s.a.busy := rfl
@[simp] theorem State.publishCopy_a_running (s : State) : s.publishCopy.a.running = s.a.running := rfl
@[simp] theorem State.publishCopy_a_waitAdc (s : State) : s.publishCopy.a.waitAdc = s.a.waitAdc := rfl
@[simp] theorem State.publishCopy_a_waitStaging (s : State) : s.publishCopy.a.waitStaging = s.a.waitStaging := rfl
@[simp] theorem State.publishCopy_a_mode (s : State) : s.publishCopy.a.mode = s.a.mode := rfl
@[simp] theorem State.publishCopy_a_phase (s : State) : s.publishCopy.a.phase = s.a.phase := rfl
@[simp] theorem State.publishCopy_a_op (s : State) : s.publishCopy.a.op = s.a.op := rfl
@[simp] theorem State.publishCopy_a_err (s : State) : s.publishCopy.a.err = s.a.err := rfl
@[simp] theorem State.publishCopy_a_filtLen (s : State) : s.publishCopy.a.filtLen = s.a.filtLen := rfl
@[simp] theorem State.publishCopy_a_trigPos (s : State) : s.publishCopy.a.trigPos = s.a.trigPos := rfl
@[simp] theorem State.publishCopy_a_frameCnt (s : State) : s.publishCopy.a.frameCnt = s.a.frameCnt := rfl
@[simp] theorem State.publishCopy_a_pubCnt (s : State) : s.publishCopy.a.pubCnt = s.a.pubCnt := rfl
@[simp] theorem State.publishCopy_a_cycle (s : State) : s.publishCopy.a.cycle = s.a.cycle := rfl
@[simp] theorem State.publishCopy_a_tsCap (s : State) : s.publishCopy.a.tsCap = s.a.tsCap := rfl
@[simp] theorem State.publishCopy_a_tsProcS (s : State) : s.publishCopy.a.tsProcS = s.a.tsProcS := rfl
@[simp] theorem State.publishCopy_a_tsProcE (s : State) : s.publishCopy.a.tsProcE = s.a.tsProcE := rfl
@[simp] theorem State.publishCopy_a_memSel (s : State) : s.publishCopy.a.memSel = s.a.memSel := rfl
@[simp] theorem State.publishCopy_a_memIdx (s : State) : s.publishCopy.a.memIdx = s.a.memIdx := rfl
@[simp] theorem State.publishCopy_a_req (s : State) : s.publishCopy.a.req = s.a.req := rfl
@[simp] theorem State.publishCopy_a_ackSync (s : State) : s.publishCopy.a.ackSync = s.a.ackSync := rfl
@[simp] theorem State.publishCopy_a_adcEn (s : State) : s.publishCopy.a.adcEn = s.a.adcEn := rfl
@[simp] theorem State.publishCopy_a_rdata (s : State) : s.publishCopy.a.rdata = s.a.rdata := rfl
@[simp] theorem State.publishCopy_a_pos (s : State) : s.publishCopy.a.pos = .publishToggle := rfl
@[simp] theorem State.publishCopy_b (s : State) : s.publishCopy.b = s.b := rfl
@[simp] theorem State.publishCopy_mem_raw (s : State) : s.publishCopy.mem.raw = s.mem.raw := rfl
@[simp] theorem State.publishCopy_mem_filt (s : State) : s.publishCopy.mem.filt = s.mem.filt := rfl
@[simp] theorem State.publishCopy_mem_work (s : State) : s.publishCopy.mem.work = s.mem.work := rfl
@[simp] theorem State.publishCopy_mem_mag (s : State) : s.publishCopy.mem.mag = s.mem.mag := rfl
@[simp] theorem State.publishCopy_mem_db (s : State) : s.publishCopy.mem.db = s.mem.db := rfl
@[simp] theorem State.publishCopy_mem_staging (s : State) : s.publishCopy.mem.staging = copyFront (s.cfg.frameLen s.a.mode) s.frameSource s.mem.staging := rfl
@[simp] theorem State.publishCopy_mem_slot0 (s : State) : s.publishCopy.mem.slot0 = s.mem.slot0 := rfl
@[simp] theorem State.publishCopy_mem_slot1 (s : State) : s.publishCopy.mem.slot1 = s.mem.slot1 := rfl
@[simp] theorem State.publishCopy_adcOffered (s : State) : s.publishCopy.adcOffered = s.adcOffered := rfl
@[simp] theorem State.publishCopy_sched (s : State) : s.publishCopy.sched = s.sched := rfl
@[simp] theorem State.publishCopy_turn (s : State) : s.publishCopy.turn = s.turn := rfl
@[simp] theorem State.publishCopy_draws (s : State) : s.publishCopy.draws = s.draws := rfl

/-! ## `storeRaw` -/

@[simp] theorem State.storeRaw_cfg (s : State) (i : Nat) (v : Half) : (s.storeRaw i v).cfg = s.cfg := rfl
@[simp] theorem State.storeRaw_rstN (s : State) (i : Nat) (v : Half) : (s.storeRaw i v).rstN = s.rstN := rfl
@[simp] theorem State.storeRaw_modeStrap (s : State) (i : Nat) (v : Half) : (s.storeRaw i v).modeStrap = s.modeStrap := rfl
@[simp] theorem State.storeRaw_a (s : State) (i : Nat) (v : Half) : (s.storeRaw i v).a = s.a := rfl
@[simp] theorem State.storeRaw_b (s : State) (i : Nat) (v : Half) : (s.storeRaw i v).b = s.b := rfl
@[simp] theorem State.storeRaw_mem_raw (s : State) (i : Nat) (v : Half) : (s.storeRaw i v).mem.raw = s.mem.raw.set i v := rfl
@[simp] theorem State.storeRaw_mem_filt (s : State) (i : Nat) (v : Half) : (s.storeRaw i v).mem.filt = s.mem.filt := rfl
@[simp] theorem State.storeRaw_mem_work (s : State) (i : Nat) (v : Half) : (s.storeRaw i v).mem.work = s.mem.work := rfl
@[simp] theorem State.storeRaw_mem_mag (s : State) (i : Nat) (v : Half) : (s.storeRaw i v).mem.mag = s.mem.mag := rfl
@[simp] theorem State.storeRaw_mem_db (s : State) (i : Nat) (v : Half) : (s.storeRaw i v).mem.db = s.mem.db := rfl
@[simp] theorem State.storeRaw_mem_staging (s : State) (i : Nat) (v : Half) : (s.storeRaw i v).mem.staging = s.mem.staging := rfl
@[simp] theorem State.storeRaw_mem_slot0 (s : State) (i : Nat) (v : Half) : (s.storeRaw i v).mem.slot0 = s.mem.slot0 := rfl
@[simp] theorem State.storeRaw_mem_slot1 (s : State) (i : Nat) (v : Half) : (s.storeRaw i v).mem.slot1 = s.mem.slot1 := rfl
@[simp] theorem State.storeRaw_adcOffered (s : State) (i : Nat) (v : Half) : (s.storeRaw i v).adcOffered = s.adcOffered := rfl
@[simp] theorem State.storeRaw_sched (s : State) (i : Nat) (v : Half) : (s.storeRaw i v).sched = s.sched := rfl
@[simp] theorem State.storeRaw_turn (s : State) (i : Nat) (v : Half) : (s.storeRaw i v).turn = s.turn := rfl
@[simp] theorem State.storeRaw_draws (s : State) (i : Nat) (v : Half) : (s.storeRaw i v).draws = s.draws := rfl

/-! ## `filterBody` -/

@[simp] theorem State.filterBody_cfg (s : State) : s.filterBody.cfg = s.cfg := rfl
@[simp] theorem State.filterBody_rstN (s : State) : s.filterBody.rstN = s.rstN := rfl
@[simp] theorem State.filterBody_modeStrap (s : State) : s.filterBody.modeStrap = s.modeStrap := rfl
@[simp] theorem State.filterBody_a_ready (s : State) : s.filterBody.a.ready = s.a.ready := rfl
@[simp] theorem State.filterBody_a_busy (s : State) : s.filterBody.a.busy = s.a.busy := rfl
@[simp] theorem State.filterBody_a_running (s : State) : s.filterBody.a.running = s.a.running := rfl
@[simp] theorem State.filterBody_a_waitAdc (s : State) : s.filterBody.a.waitAdc = s.a.waitAdc := rfl
@[simp] theorem State.filterBody_a_waitStaging (s : State) : s.filterBody.a.waitStaging = s.a.waitStaging := rfl
@[simp] theorem State.filterBody_a_mode (s : State) : s.filterBody.a.mode = s.a.mode := rfl
@[simp] theorem State.filterBody_a_phase (s : State) : s.filterBody.a.phase = s.a.phase := rfl
@[simp] theorem State.filterBody_a_op (s : State) : s.filterBody.a.op = s.a.op := rfl
@[simp] theorem State.filterBody_a_err (s : State) : s.filterBody.a.err = s.a.err := rfl
@[simp] theorem State.filterBody_a_filtLen (s : State) : s.filterBody.a.filtLen = BitVec.ofNat 16 (filterLength s.cfg) := rfl
@[simp] theorem State.filterBody_a_trigPos (s : State) : s.filterBody.a.trigPos = s.a.trigPos := rfl
@[simp] theorem State.filterBody_a_frameCnt (s : State) : s.filterBody.a.frameCnt = s.a.frameCnt := rfl
@[simp] theorem State.filterBody_a_pubCnt (s : State) : s.filterBody.a.pubCnt = s.a.pubCnt := rfl
@[simp] theorem State.filterBody_a_cycle (s : State) : s.filterBody.a.cycle = s.a.cycle := rfl
@[simp] theorem State.filterBody_a_tsCap (s : State) : s.filterBody.a.tsCap = s.a.tsCap := rfl
@[simp] theorem State.filterBody_a_tsProcS (s : State) : s.filterBody.a.tsProcS = s.a.tsProcS := rfl
@[simp] theorem State.filterBody_a_tsProcE (s : State) : s.filterBody.a.tsProcE = s.a.tsProcE := rfl
@[simp] theorem State.filterBody_a_memSel (s : State) : s.filterBody.a.memSel = s.a.memSel := rfl
@[simp] theorem State.filterBody_a_memIdx (s : State) : s.filterBody.a.memIdx = s.a.memIdx := rfl
@[simp] theorem State.filterBody_a_req (s : State) : s.filterBody.a.req = s.a.req := rfl
@[simp] theorem State.filterBody_a_ackSync (s : State) : s.filterBody.a.ackSync = s.a.ackSync := rfl
@[simp] theorem State.filterBody_a_adcEn (s : State) : s.filterBody.a.adcEn = s.a.adcEn := rfl
@[simp] theorem State.filterBody_a_rdata (s : State) : s.filterBody.a.rdata = s.a.rdata := rfl
@[simp] theorem State.filterBody_a_pos (s : State) : s.filterBody.a.pos = s.a.pos := rfl
@[simp] theorem State.filterBody_b (s : State) : s.filterBody.b = s.b := rfl
@[simp] theorem State.filterBody_mem_raw (s : State) : s.filterBody.mem.raw = s.mem.raw := rfl
@[simp] theorem State.filterBody_mem_filt (s : State) : s.filterBody.mem.filt = filterBuffer s.cfg s.mem.raw := rfl
@[simp] theorem State.filterBody_mem_work (s : State) : s.filterBody.mem.work = s.mem.work := rfl
@[simp] theorem State.filterBody_mem_mag (s : State) : s.filterBody.mem.mag = s.mem.mag := rfl
@[simp] theorem State.filterBody_mem_db (s : State) : s.filterBody.mem.db = s.mem.db := rfl
@[simp] theorem State.filterBody_mem_staging (s : State) : s.filterBody.mem.staging = s.mem.staging := rfl
@[simp] theorem State.filterBody_mem_slot0 (s : State) : s.filterBody.mem.slot0 = s.mem.slot0 := rfl
@[simp] theorem State.filterBody_mem_slot1 (s : State) : s.filterBody.mem.slot1 = s.mem.slot1 := rfl
@[simp] theorem State.filterBody_adcOffered (s : State) : s.filterBody.adcOffered = s.adcOffered := rfl
@[simp] theorem State.filterBody_sched (s : State) : s.filterBody.sched = s.sched := rfl
@[simp] theorem State.filterBody_turn (s : State) : s.filterBody.turn = s.turn := rfl
@[simp] theorem State.filterBody_draws (s : State) : s.filterBody.draws = s.draws := rfl

/-! ## `windowBody` -/

@[simp] theorem State.windowBody_cfg (s : State) : s.windowBody.cfg = s.cfg := rfl
@[simp] theorem State.windowBody_rstN (s : State) : s.windowBody.rstN = s.rstN := rfl
@[simp] theorem State.windowBody_modeStrap (s : State) : s.windowBody.modeStrap = s.modeStrap := rfl
@[simp] theorem State.windowBody_a (s : State) : s.windowBody.a = s.a := rfl
@[simp] theorem State.windowBody_b (s : State) : s.windowBody.b = s.b := rfl
@[simp] theorem State.windowBody_mem_raw (s : State) : s.windowBody.mem.raw = s.mem.raw := rfl
@[simp] theorem State.windowBody_mem_filt (s : State) : s.windowBody.mem.filt = s.mem.filt := rfl
@[simp] theorem State.windowBody_mem_work (s : State) : s.windowBody.mem.work = windowBuffer s.cfg s.mem.filt := rfl
@[simp] theorem State.windowBody_mem_mag (s : State) : s.windowBody.mem.mag = s.mem.mag := rfl
@[simp] theorem State.windowBody_mem_db (s : State) : s.windowBody.mem.db = s.mem.db := rfl
@[simp] theorem State.windowBody_mem_staging (s : State) : s.windowBody.mem.staging = s.mem.staging := rfl
@[simp] theorem State.windowBody_mem_slot0 (s : State) : s.windowBody.mem.slot0 = s.mem.slot0 := rfl
@[simp] theorem State.windowBody_mem_slot1 (s : State) : s.windowBody.mem.slot1 = s.mem.slot1 := rfl
@[simp] theorem State.windowBody_adcOffered (s : State) : s.windowBody.adcOffered = s.adcOffered := rfl
@[simp] theorem State.windowBody_sched (s : State) : s.windowBody.sched = s.sched := rfl
@[simp] theorem State.windowBody_turn (s : State) : s.windowBody.turn = s.turn := rfl
@[simp] theorem State.windowBody_draws (s : State) : s.windowBody.draws = s.draws := rfl

/-! ## `fftBody` -/

@[simp] theorem State.fftBody_cfg (s : State) : s.fftBody.cfg = s.cfg := rfl
@[simp] theorem State.fftBody_rstN (s : State) : s.fftBody.rstN = s.rstN := rfl
@[simp] theorem State.fftBody_modeStrap (s : State) : s.fftBody.modeStrap = s.modeStrap := rfl
@[simp] theorem State.fftBody_a (s : State) : s.fftBody.a = s.a := rfl
@[simp] theorem State.fftBody_b (s : State) : s.fftBody.b = s.b := rfl
@[simp] theorem State.fftBody_mem_raw (s : State) : s.fftBody.mem.raw = s.mem.raw := rfl
@[simp] theorem State.fftBody_mem_filt (s : State) : s.fftBody.mem.filt = s.mem.filt := rfl
@[simp] theorem State.fftBody_mem_work (s : State) : s.fftBody.mem.work = fftBuffer s.cfg s.mem.work := rfl
@[simp] theorem State.fftBody_mem_mag (s : State) : s.fftBody.mem.mag = s.mem.mag := rfl
@[simp] theorem State.fftBody_mem_db (s : State) : s.fftBody.mem.db = s.mem.db := rfl
@[simp] theorem State.fftBody_mem_staging (s : State) : s.fftBody.mem.staging = s.mem.staging := rfl
@[simp] theorem State.fftBody_mem_slot0 (s : State) : s.fftBody.mem.slot0 = s.mem.slot0 := rfl
@[simp] theorem State.fftBody_mem_slot1 (s : State) : s.fftBody.mem.slot1 = s.mem.slot1 := rfl
@[simp] theorem State.fftBody_adcOffered (s : State) : s.fftBody.adcOffered = s.adcOffered := rfl
@[simp] theorem State.fftBody_sched (s : State) : s.fftBody.sched = s.sched := rfl
@[simp] theorem State.fftBody_turn (s : State) : s.fftBody.turn = s.turn := rfl
@[simp] theorem State.fftBody_draws (s : State) : s.fftBody.draws = s.draws := rfl

/-! ## `powerBody` -/

@[simp] theorem State.powerBody_cfg (s : State) : s.powerBody.cfg = s.cfg := rfl
@[simp] theorem State.powerBody_rstN (s : State) : s.powerBody.rstN = s.rstN := rfl
@[simp] theorem State.powerBody_modeStrap (s : State) : s.powerBody.modeStrap = s.modeStrap := rfl
@[simp] theorem State.powerBody_a (s : State) : s.powerBody.a = s.a := rfl
@[simp] theorem State.powerBody_b (s : State) : s.powerBody.b = s.b := rfl
@[simp] theorem State.powerBody_mem_raw (s : State) : s.powerBody.mem.raw = s.mem.raw := rfl
@[simp] theorem State.powerBody_mem_filt (s : State) : s.powerBody.mem.filt = s.mem.filt := rfl
@[simp] theorem State.powerBody_mem_work (s : State) : s.powerBody.mem.work = s.mem.work := rfl
@[simp] theorem State.powerBody_mem_mag (s : State) : s.powerBody.mem.mag = powerBuffer s.cfg s.mem.work := rfl
@[simp] theorem State.powerBody_mem_db (s : State) : s.powerBody.mem.db = s.mem.db := rfl
@[simp] theorem State.powerBody_mem_staging (s : State) : s.powerBody.mem.staging = s.mem.staging := rfl
@[simp] theorem State.powerBody_mem_slot0 (s : State) : s.powerBody.mem.slot0 = s.mem.slot0 := rfl
@[simp] theorem State.powerBody_mem_slot1 (s : State) : s.powerBody.mem.slot1 = s.mem.slot1 := rfl
@[simp] theorem State.powerBody_adcOffered (s : State) : s.powerBody.adcOffered = s.adcOffered := rfl
@[simp] theorem State.powerBody_sched (s : State) : s.powerBody.sched = s.sched := rfl
@[simp] theorem State.powerBody_turn (s : State) : s.powerBody.turn = s.turn := rfl
@[simp] theorem State.powerBody_draws (s : State) : s.powerBody.draws = s.draws := rfl

/-! ## `dbconvBody` -/

@[simp] theorem State.dbconvBody_cfg (s : State) : s.dbconvBody.cfg = s.cfg := rfl
@[simp] theorem State.dbconvBody_rstN (s : State) : s.dbconvBody.rstN = s.rstN := rfl
@[simp] theorem State.dbconvBody_modeStrap (s : State) : s.dbconvBody.modeStrap = s.modeStrap := rfl
@[simp] theorem State.dbconvBody_a (s : State) : s.dbconvBody.a = s.a := rfl
@[simp] theorem State.dbconvBody_b (s : State) : s.dbconvBody.b = s.b := rfl
@[simp] theorem State.dbconvBody_mem_raw (s : State) : s.dbconvBody.mem.raw = s.mem.raw := rfl
@[simp] theorem State.dbconvBody_mem_filt (s : State) : s.dbconvBody.mem.filt = s.mem.filt := rfl
@[simp] theorem State.dbconvBody_mem_work (s : State) : s.dbconvBody.mem.work = s.mem.work := rfl
@[simp] theorem State.dbconvBody_mem_mag (s : State) : s.dbconvBody.mem.mag = s.mem.mag := rfl
@[simp] theorem State.dbconvBody_mem_db (s : State) : s.dbconvBody.mem.db = dbBuffer s.cfg s.mem.mag := rfl
@[simp] theorem State.dbconvBody_mem_staging (s : State) : s.dbconvBody.mem.staging = s.mem.staging := rfl
@[simp] theorem State.dbconvBody_mem_slot0 (s : State) : s.dbconvBody.mem.slot0 = s.mem.slot0 := rfl
@[simp] theorem State.dbconvBody_mem_slot1 (s : State) : s.dbconvBody.mem.slot1 = s.mem.slot1 := rfl
@[simp] theorem State.dbconvBody_adcOffered (s : State) : s.dbconvBody.adcOffered = s.adcOffered := rfl
@[simp] theorem State.dbconvBody_sched (s : State) : s.dbconvBody.sched = s.sched := rfl
@[simp] theorem State.dbconvBody_turn (s : State) : s.dbconvBody.turn = s.turn := rfl
@[simp] theorem State.dbconvBody_draws (s : State) : s.dbconvBody.draws = s.draws := rfl

end Sys2Proof.Machine
end

