-- ==== Sys2Proof/Laws/Memory.lean ====
section
/-! SUPPORT. The buffers: lengths and elements of what each buffer-wide operation writes, read after write of one
element, and that every memory operation keeps the form `Memory.wf`. -/

namespace Sys2Proof.Machine

/-! ## Elements of lists -/

theorem elem_of_length_le {xs : List Half} {i : Nat} (h : xs.length ≤ i) : elem xs i = 0 := by
  simp [elem, h]

theorem elem_map_range (f : Nat → Half) {n i : Nat} (h : i < n) : elem ((List.range n).map f) i = f i := by
  simp [elem, h]

theorem pairElem_map_range (f : Nat → Pair) {n i : Nat} (h : i < n) :
    pairElem ((List.range n).map f) i = f i := by
  simp [pairElem, h]

theorem elem_set_self (xs : List Half) {i : Nat} (v : Half) (h : i < xs.length) : elem (xs.set i v) i = v := by
  simp [elem, h]

theorem elem_set_ne (xs : List Half) {i j : Nat} (v : Half) (h : i ≠ j) : elem (xs.set i v) j = elem xs j := by
  simp [elem, List.getElem?_set_ne h]

theorem pairElem_set_self (xs : List Pair) {i : Nat} (v : Pair) (h : i < xs.length) :
    pairElem (xs.set i v) i = v := by
  simp [pairElem, h]

theorem pairElem_set_ne (xs : List Pair) {i j : Nat} (v : Pair) (h : i ≠ j) :
    pairElem (xs.set i v) j = pairElem xs j := by
  simp [pairElem, List.getElem?_set_ne h]

/-! ## `copyFront` -/

@[simp] theorem copyFront_length (n : Nat) (src dst : List Half) : (copyFront n src dst).length = dst.length := by
  simp [copyFront]

theorem elem_copyFront_lt {n i : Nat} (src dst : List Half) (h : i < n) (hd : i < dst.length) :
    elem (copyFront n src dst) i = elem src i := by
  simp [copyFront, elem, hd, h]

theorem elem_copyFront_ge {n i : Nat} (src dst : List Half) (h : n ≤ i) :
    elem (copyFront n src dst) i = elem dst i := by
  by_cases hd : i < dst.length
  · simp [copyFront, elem, hd, Nat.not_lt.mpr h]
  · simp [copyFront, elem, Nat.not_lt.mp hd]

/-! ## Lengths of the computed buffers -/

@[simp] theorem filterBuffer_length (p : Params) (raw : List Half) :
    (filterBuffer p raw).length = p.downsampled := by simp [filterBuffer]

@[simp] theorem windowBuffer_length (p : Params) (filt : List Half) :
    (windowBuffer p filt).length = p.fftSize := by simp [windowBuffer]

@[simp] theorem powerBuffer_length (p : Params) (work : List Pair) :
    (powerBuffer p work).length = p.fftSize := by simp [powerBuffer]

@[simp] theorem dbBuffer_length (p : Params) (mag : List Half) : (dbBuffer p mag).length = p.bins := by
  simp [dbBuffer]

@[simp] theorem butterflyAt_length (p : Params) (m g h t : Nat) (work : List Pair) :
    (butterflyAt p m g h t work).length = work.length := by simp [butterflyAt]

/-- A fold of length-keeping updates keeps the length. -/
theorem foldl_length {ι : Type} (f : List Pair → ι → List Pair) (hf : ∀ w i, (f w i).length = w.length)
    (is : List ι) (w : List Pair) : (is.foldl f w).length = w.length := by
  induction is generalizing w with
  | nil => rfl
  | cons i is ih => rw [List.foldl_cons, ih, hf]

@[simp] theorem fftStage_length (p : Params) (work : List Pair) (m : Nat) :
    (fftStage p work m).length = work.length :=
  foldl_length _ (fun w k => foldl_length _ (fun w' t => butterflyAt_length p m (k * m) (m / 2) t w') _ w) _ work

@[simp] theorem bitrevBuffer_length (p : Params) (work : List Pair) :
    (bitrevBuffer p work).length = work.length :=
  foldl_length _ (fun _ _ => List.length_set) _ work

@[simp] theorem fftBuffer_length (p : Params) (work : List Pair) : (fftBuffer p work).length = work.length := by
  rw [fftBuffer, foldl_length _ (fun w k => fftStage_length p w (2 ^ (k + 1))), bitrevBuffer_length]

/-! ## The form -/

/-- What the form says. -/
theorem Memory.wf_iff (p : Params) (m : Memory) :
    m.wf p = true ↔ m.raw.length = p.rawbufLen ∧ (∀ x ∈ m.raw, x.toNat < 2 ^ p.adcBits)
      ∧ m.filt.length = p.downsampled ∧ m.work.length = p.fftSize ∧ m.mag.length = p.fftSize
      ∧ m.db.length = p.bins ∧ m.staging.length = p.slotCap ∧ m.slot0.length = p.slotCap
      ∧ m.slot1.length = p.slotCap := by
  simp [Memory.wf, and_assoc]

/-- A sample cut to `ADC_BITS` bits is an `ADC_BITS`-bit value. -/
theorem adcBitsOf_lt (p : Params) (v : Nat) : (adcBitsOf p v).toNat < 2 ^ p.adcBits := by
  have h : v % 2 ^ p.adcBits < 2 ^ p.adcBits := Nat.mod_lt _ (Nat.two_pow_pos _)
  simpa [adcBitsOf] using lt_of_le_of_lt (Nat.mod_le _ _) h

/-- Setting one element of RAW to an `ADC_BITS`-bit value keeps the form. -/
theorem Memory.wf_setRaw {p : Params} {m : Memory} (h : m.wf p = true) (i : Nat) {v : Half}
    (hv : v.toNat < 2 ^ p.adcBits) : ({ m with raw := m.raw.set i v } : Memory).wf p = true := by
  rw [Memory.wf_iff] at h ⊢
  refine ⟨by simpa using h.1, fun x hx => ?_, h.2.2⟩
  rcases List.mem_or_eq_of_mem_set hx with hx | rfl
  · exact h.2.1 x hx
  · exact hv

/-- Replacing FILT by a list of its length keeps the form. -/
theorem Memory.wf_withFilt {p : Params} {m : Memory} (h : m.wf p = true) {xs : List Half}
    (hx : xs.length = p.downsampled) : ({ m with filt := xs } : Memory).wf p = true := by
  rw [Memory.wf_iff] at h ⊢
  simp_all

/-- Replacing WORK by a list of its length keeps the form. -/
theorem Memory.wf_withWork {p : Params} {m : Memory} (h : m.wf p = true) {xs : List Pair}
    (hx : xs.length = p.fftSize) : ({ m with work := xs } : Memory).wf p = true := by
  rw [Memory.wf_iff] at h ⊢
  simp_all

/-- Replacing MAG by a list of its length keeps the form. -/
theorem Memory.wf_withMag {p : Params} {m : Memory} (h : m.wf p = true) {xs : List Half}
    (hx : xs.length = p.fftSize) : ({ m with mag := xs } : Memory).wf p = true := by
  rw [Memory.wf_iff] at h ⊢
  simp_all

/-- Replacing DB by a list of its length keeps the form. -/
theorem Memory.wf_withDb {p : Params} {m : Memory} (h : m.wf p = true) {xs : List Half}
    (hx : xs.length = p.bins) : ({ m with db := xs } : Memory).wf p = true := by
  rw [Memory.wf_iff] at h ⊢
  simp_all

/-- Replacing STAGING by a list of its length keeps the form. -/
theorem Memory.wf_withStaging {p : Params} {m : Memory} (h : m.wf p = true) {xs : List Half}
    (hx : xs.length = p.slotCap) : ({ m with staging := xs } : Memory).wf p = true := by
  rw [Memory.wf_iff] at h ⊢
  simp_all

/-- Replacing a slot by a list of its length keeps the form. -/
theorem Memory.wf_setSlot {p : Params} {m : Memory} (h : m.wf p = true) (n : Bool) {xs : List Half}
    (hx : xs.length = p.slotCap) : (m.setSlot n xs).wf p = true := by
  rw [Memory.wf_iff] at h ⊢
  cases n <;> simp_all [Memory.setSlot]

/-- The length of a slot of buffers of the form. -/
theorem Memory.slot_length {p : Params} {m : Memory} (h : m.wf p = true) (n : Bool) :
    (m.slot n).length = p.slotCap := by
  rw [Memory.wf_iff] at h
  cases n <;> simp_all [Memory.slot]

@[simp] theorem Memory.slot_setSlot_self (m : Memory) (n : Bool) (xs : List Half) : (m.setSlot n xs).slot n = xs := by
  cases n <;> rfl

@[simp] theorem Memory.slot_setSlot_other (m : Memory) (n : Bool) (xs : List Half) :
    (m.setSlot n xs).slot (!n) = m.slot (!n) := by
  cases n <;> rfl

@[simp] theorem Memory.setSlot_staging (m : Memory) (n : Bool) (xs : List Half) :
    (m.setSlot n xs).staging = m.staging := by
  cases n <;> rfl

/-! ## Every memory operation keeps the form -/

/-- A MEM_DATA write keeps the form. -/
theorem windowStore_wf {p : Params} {m : Memory} (h : m.wf p = true) (sel : BitVec 4) (i : Nat) (v : Word) :
    (windowStore p m sel i v).wf p = true := by
  have h' := (Memory.wf_iff p m).mp h
  unfold windowStore
  split
  · exact Memory.wf_setRaw h i (adcBitsOf_lt p _)
  · exact Memory.wf_withFilt h (by simp [h'.2.2.1])
  · exact Memory.wf_withWork h (by simp [h'.2.2.2.1])
  · exact Memory.wf_withMag h (by simp [h'.2.2.2.2.1])
  · exact h

/-- A sample stored in RAW keeps the form. -/
theorem storeRaw_wf {s : State} (h : s.mem.wf s.cfg = true) (i v : Nat) :
    (s.storeRaw i (adcBitsOf s.cfg v)).mem.wf s.cfg = true :=
  Memory.wf_setRaw h i (adcBitsOf_lt s.cfg v)

theorem filterBody_wf {s : State} (h : s.mem.wf s.cfg = true) : s.filterBody.mem.wf s.cfg = true :=
  Memory.wf_withFilt h (filterBuffer_length _ _)

theorem windowBody_wf {s : State} (h : s.mem.wf s.cfg = true) : s.windowBody.mem.wf s.cfg = true :=
  Memory.wf_withWork h (windowBuffer_length _ _)

theorem fftBody_wf {s : State} (h : s.mem.wf s.cfg = true) : s.fftBody.mem.wf s.cfg = true :=
  Memory.wf_withWork h ((fftBuffer_length _ _).trans ((Memory.wf_iff _ _).mp h).2.2.2.1)

theorem powerBody_wf {s : State} (h : s.mem.wf s.cfg = true) : s.powerBody.mem.wf s.cfg = true :=
  Memory.wf_withMag h (powerBuffer_length _ _)

theorem dbconvBody_wf {s : State} (h : s.mem.wf s.cfg = true) : s.dbconvBody.mem.wf s.cfg = true :=
  Memory.wf_withDb h (dbBuffer_length _ _)

theorem spectrumBody_wf {s : State} (h : s.mem.wf s.cfg = true) : s.spectrumBody.mem.wf s.cfg = true :=
  dbconvBody_wf (s := s.windowBody.fftBody.powerBody)
    (powerBody_wf (s := s.windowBody.fftBody) (fftBody_wf (s := s.windowBody) (windowBody_wf (s := s) h)))

/-- PUBLISH's copy keeps the form. -/
theorem publishCopy_wf {s : State} (h : s.mem.wf s.cfg = true) : s.publishCopy.mem.wf s.cfg = true :=
  Memory.wf_withStaging h
    ((copyFront_length _ _ _).trans ((Memory.wf_iff _ _).mp h).2.2.2.2.2.2.1)

/-- POP's copy-in keeps the form. -/
theorem popCopy_wf {s : State} (h : s.mem.wf s.cfg = true) : s.popCopy.mem.wf s.cfg = true :=
  Memory.wf_setSlot h _ ((copyFront_length _ _ _).trans (Memory.slot_length h _))

/-- Leaving reset, domain A's buffers: whatever the free values are, the form holds if it holds of the slots. -/
theorem resetA_wf (p : Params) (draw : Nat) {m : Memory} (h0 : m.slot0.length = p.slotCap)
    (h1 : m.slot1.length = p.slotCap) : (m.resetA p draw).wf p = true := by
  rw [Memory.wf_iff]
  simp only [Memory.resetA, powerOnHalves, List.length_map, List.length_range, List.length_replicate, h0, h1,
    true_and, and_true]
  intro x hx
  obtain ⟨i, -, rfl⟩ := List.mem_map.mp hx
  exact adcBitsOf_lt _ _

/-- Leaving reset, domain B's buffers. -/
theorem resetB_wf {p : Params} {m : Memory} (h : m.wf p = true) : (m.resetB p).wf p = true := by
  rw [Memory.wf_iff] at h ⊢
  simp_all [Memory.resetB]

/-- The buffers of an instance right after reset have the form, whatever its parameters. -/
theorem resetMemory_wf (p : Params) : ((Memory.empty.resetA p 0).resetB p).wf p = true := by
  rw [Memory.wf_iff]
  have hraw : ∀ x ∈ (Memory.empty.resetA p 0).raw, x.toNat < 2 ^ p.adcBits := by
    intro x hx
    obtain ⟨i, -, rfl⟩ := List.mem_map.mp hx
    exact adcBitsOf_lt _ _
  exact ⟨by simp [Memory.resetA, Memory.resetB], hraw, by simp [Memory.resetA, Memory.resetB, powerOnHalves]⟩

/-- `State.reset`'s buffers have the form. -/
theorem reset_wf : State.reset.mem.wf State.reset.cfg = true := resetMemory_wf defaultParams

end Sys2Proof.Machine
end

