-- ==== Sys2Proof/Laws/Ops.lean ====
section
/-! SUPPORT. Once for each shared operation, everything it can do. The provers cite these instead of unfolding. -/

namespace Sys2Proof.Machine

/-! ## Error records -/

theorem ErrorRecord.record_first {e : ErrorRecord} (h : e.code = 0) (c : ErrorCode) (opc : BitVec 8) :
    e.record c opc = ⟨c.code, e.multi, opc⟩ := by
  simp [ErrorRecord.record, h]

theorem ErrorRecord.record_later {e : ErrorRecord} (h : e.code ≠ 0) (c : ErrorCode) (opc : BitVec 8) :
    e.record c opc = ⟨e.code, true, e.opc⟩ := by
  rw [ErrorRecord.record, if_neg h]

/-- No error code is 0: after `raise` an error is recorded. -/
theorem ErrorCode.code_ne_zero (c : ErrorCode) : c.code ≠ 0 := by cases c <;> decide

/-! ## Acceptance -/

/-- `issueA` ignores the write, refuses it for BUSY or for MODE, or accepts it. -/
theorem State.issueA_cases (s : State) (op : BitVec 8) (legal : Mode → Bool) (accepted : State) :
    (s.a.ready = false ∧ s.issueA op legal accepted = s)
    ∨ (s.a.ready = true ∧ s.a.busy = true ∧ s.issueA op legal accepted = s.raise .a .busy op)
    ∨ (s.a.ready = true ∧ s.a.busy = false ∧ legal s.a.mode = false
        ∧ s.issueA op legal accepted = s.raise .a .mode op)
    ∨ (s.a.ready = true ∧ s.a.busy = false ∧ legal s.a.mode = true ∧ s.issueA op legal accepted = accepted) := by
  cases hr : s.a.ready <;> cases hb : s.a.busy <;> cases hl : legal s.a.mode <;> simp [State.issueA, hr, hb, hl]

/-- A command that meets its conditions is accepted. -/
theorem State.issueA_accepts {s : State} (hr : s.a.ready = true) (hb : s.a.busy = false) {legal : Mode → Bool}
    (hl : legal s.a.mode = true) (op : BitVec 8) (accepted : State) : s.issueA op legal accepted = accepted := by
  simp [State.issueA, hr, hb, hl]

/-- `issueB` ignores the write, refuses it for BUSY or for SEQ, or accepts it. -/
theorem State.issueB_cases (s : State) (op : BitVec 8) (freshNeeded : Bool) (accepted : State) :
    (s.b.ready = false ∧ s.issueB op freshNeeded accepted = s)
    ∨ (s.b.ready = true ∧ s.b.busy = true ∧ s.issueB op freshNeeded accepted = s.raise .b .busy op)
    ∨ (s.b.ready = true ∧ s.b.busy = false ∧ s.b.fresh ≠ freshNeeded
        ∧ s.issueB op freshNeeded accepted = s.raise .b .seq op)
    ∨ (s.b.ready = true ∧ s.b.busy = false ∧ s.b.fresh = freshNeeded
        ∧ s.issueB op freshNeeded accepted = accepted) := by
  cases hr : s.b.ready <;> cases hb : s.b.busy <;> by_cases hf : s.b.fresh = freshNeeded <;>
    simp [State.issueB, hr, hb, hf]

/-- A command that meets its conditions is accepted. -/
theorem State.issueB_accepts {s : State} (hr : s.b.ready = true) (hb : s.b.busy = false) {freshNeeded : Bool}
    (hf : s.b.fresh = freshNeeded) (op : BitVec 8) (accepted : State) :
    s.issueB op freshNeeded accepted = accepted := by
  simp [State.issueB, hr, hb, hf]

/-! ## The producer's command frame -/

/-- A phase's end inside RUN. -/
theorem State.finishA_run {s : State} (h : s.a.op = opRun) (next : ProducerPos) : s.finishA next = s.setPos next := by
  simp [State.finishA, h]

/-- A phase's end outside RUN. -/
theorem State.finishA_command {s : State} (h : s.a.op ≠ opRun) (next : ProducerPos) :
    s.finishA next = s.completeA := by
  simp [State.finishA, h]

/-! ## The producer engine, one lemma per position -/

theorem producerStep_idle {s : State} (h : s.a.pos = .idle) : producerStep s = s := by
  simp [producerStep, h]

theorem producerStep_starting {s : State} {ph : Phase} (h : s.a.pos = .starting ph) :
    producerStep s = s.startPhase ph := by
  simp [producerStep, h]

theorem producerStep_held {s : State} (hw : s.a.waitAdc = true)
    (h : (∃ i, s.a.pos = .capture i) ∨ s.a.pos = .edgeFirst ∨ (∃ p c, s.a.pos = .edgeScan p c)
      ∨ ∃ i c, s.a.pos = .edgeFill i c) : producerStep s = s := by
  rcases h with ⟨i, h⟩ | h | ⟨p, c, h⟩ | ⟨i, c, h⟩ <;> simp [producerStep, h, hw]

theorem producerStep_capture_lt {s : State} {i : Nat} (h : s.a.pos = .capture i) (hw : s.a.waitAdc = false)
    (hi : i < s.cfg.rawSamples) : producerStep s = s.holdAdc := by
  simp [producerStep, h, hw, hi]

theorem producerStep_capture_ge {s : State} {i : Nat} (h : s.a.pos = .capture i) (hw : s.a.waitAdc = false)
    (hi : s.cfg.rawSamples ≤ i) : producerStep s = s.captureEnd := by
  simp [producerStep, h, hw, Nat.not_lt.mpr hi]

theorem producerStep_edgeFirst {s : State} (h : s.a.pos = .edgeFirst) (hw : s.a.waitAdc = false) :
    producerStep s = s.holdAdc := by
  simp [producerStep, h, hw]

theorem producerStep_edgeScan {s : State} {p : Half} {c : Word} (h : s.a.pos = .edgeScan p c)
    (hw : s.a.waitAdc = false) : producerStep s = s.holdAdc := by
  simp [producerStep, h, hw]

theorem producerStep_edgeFill_lt {s : State} {i : Nat} {c : Word} (h : s.a.pos = .edgeFill i c)
    (hw : s.a.waitAdc = false) (hi : i < s.cfg.oscSamples) : producerStep s = s.holdAdc := by
  simp [producerStep, h, hw, hi]

theorem producerStep_edgeFill_ge {s : State} {i : Nat} {c : Word} (h : s.a.pos = .edgeFill i c)
    (hw : s.a.waitAdc = false) (hi : s.cfg.oscSamples ≤ i) : producerStep s = s.edgeEnd c := by
  simp [producerStep, h, hw, Nat.not_lt.mpr hi]

theorem producerStep_body {s : State} (h : s.a.pos = .body) : producerStep s = s.processEnd := by
  simp [producerStep, h]

theorem producerStep_publish_held {s : State} (h : s.a.pos = .publish) (hw : s.a.waitStaging = true) :
    producerStep s = s := by
  simp [producerStep, h, hw]

theorem producerStep_publish {s : State} (h : s.a.pos = .publish) (hw : s.a.waitStaging = false) :
    producerStep s = s.publishTest := by
  simp [producerStep, h, hw]

theorem producerStep_publishCopy {s : State} (h : s.a.pos = .publishCopy) : producerStep s = s.publishCopy := by
  simp [producerStep, h]

theorem producerStep_publishToggle {s : State} (h : s.a.pos = .publishToggle) : producerStep s = s.publishEnd := by
  simp [producerStep, h]

/-! ## The consumer engine, one lemma per position -/

theorem consumerStep_idle {s : State} (h : s.b.pos = .idle) : consumerStep s = s := by
  simp [consumerStep, h]

theorem consumerStep_pop_held {s : State} (h : s.b.pos = .pop) (hw : s.b.waitToken = true) : consumerStep s = s := by
  simp [consumerStep, h, hw]

theorem consumerStep_pop {s : State} (h : s.b.pos = .pop) (hw : s.b.waitToken = false) :
    consumerStep s = s.popTest := by
  simp [consumerStep, h, hw]

theorem consumerStep_popCopy {s : State} (h : s.b.pos = .popCopy) : consumerStep s = s.popCopy := by
  simp [consumerStep, h]

theorem consumerStep_popRelease {s : State} (h : s.b.pos = .popRelease) : consumerStep s = s.popEnd := by
  simp [consumerStep, h]

/-! ## The ADC and the synchronisers -/

theorem adcTransfer_none {s : State} (h : s.adcOffered = []) : adcTransfer s = s := by
  simp [adcTransfer, h]

theorem adcTransfer_not_ready {s : State} (h : s.a.waitAdc = false) : adcTransfer s = s := by
  unfold adcTransfer
  split <;> simp [DomainA.adcReady, h]

theorem adcTransfer_ready {s : State} {v : Half} {vs : List Half} (h : s.adcOffered = v :: vs)
    (hw : s.a.waitAdc = true) :
    adcTransfer s = State.takeSample { s with adcOffered := vs, a := { s.a with waitAdc := false } }
      (adcBitsOf s.cfg v.toNat) := by
  simp [adcTransfer, h, DomainA.adcReady, hw]

theorem State.takeSample_capture {s : State} {i : Nat} (h : s.a.pos = .capture i) (v : Half) :
    s.takeSample v = (s.storeRaw i v).setPos (.capture (i + 1)) := by
  simp [State.takeSample, h]

theorem State.takeSample_edgeFirst {s : State} (h : s.a.pos = .edgeFirst) (v : Half) :
    s.takeSample v = s.setPos (.edgeScan v 1) := by
  simp [State.takeSample, h]

theorem State.takeSample_edgeScan {s : State} {p : Half} {c : Word} (h : s.a.pos = .edgeScan p c) (v : Half) :
    s.takeSample v = s.setPos (edgeNext p v c) := by
  simp [State.takeSample, h]

theorem State.takeSample_edgeFill {s : State} {i : Nat} {c : Word} (h : s.a.pos = .edgeFill i c) (v : Half) :
    s.takeSample v = (s.storeRaw i v).setPos (.edgeFill (i + 1) c) := by
  simp [State.takeSample, h]

/-- The request synchroniser does nothing in reset, or copies the request and ends a wait for the token. -/
theorem reqSyncStep_cases (s : State) :
    (s.b.ready = false ∧ reqSyncStep s = s)
    ∨ (s.b.ready = true ∧ reqSyncStep s =
        { s with b := { s.b with reqSync := s.a.req, waitToken := s.b.waitToken && s.a.req == s.b.ack } }) := by
  cases h : s.b.ready <;> simp [reqSyncStep, h]

/-- The acknowledge synchroniser does nothing in reset, or copies the release and ends a wait for it. -/
theorem ackSyncStep_cases (s : State) :
    (s.a.ready = false ∧ ackSyncStep s = s)
    ∨ (s.a.ready = true ∧ ackSyncStep s =
        { s with a := { s.a with ackSync := s.b.ack, waitStaging := s.a.waitStaging && s.b.ack != s.a.req } }) := by
  cases h : s.a.ready <;> simp [ackSyncStep, h]

/-! ## The windows -/

/-- `window_check_A` in its order. -/
theorem State.windowCheck_cases (s : State) (isWrite : Bool) :
    (s.a.busy = true ∧ s.windowCheck isWrite = some .winBusy)
    ∨ (s.a.busy = false ∧ windowLen s.cfg s.a.memSel ≤ s.a.memIdx.toNat ∧ s.windowCheck isWrite = some .range)
    ∨ (s.a.busy = false ∧ s.a.memIdx.toNat < windowLen s.cfg s.a.memSel ∧ isWrite = true
        ∧ windowReadOnly s.a.memSel = true ∧ s.windowCheck isWrite = some .readOnly)
    ∨ (s.a.busy = false ∧ s.a.memIdx.toNat < windowLen s.cfg s.a.memSel
        ∧ (isWrite && windowReadOnly s.a.memSel) = false ∧ s.windowCheck isWrite = none) := by
  cases hb : s.a.busy <;> rcases Nat.lt_or_ge s.a.memIdx.toNat (windowLen s.cfg s.a.memSel) with hl | hl <;>
    cases hw : isWrite <;> cases hr : windowReadOnly s.a.memSel <;>
    simp [State.windowCheck, hb, hr, hl, Nat.not_le.mpr]

/-- A MEM_DATA read answers 0 in reset, answers 0 and raises, or answers the element and advances. -/
theorem State.readMemData_cases (s : State) :
    (s.a.ready = false ∧ s.readMemData = s.answerA 0)
    ∨ (s.a.ready = true ∧ ∃ c, s.windowCheck false = some c ∧ s.readMemData = (s.raise .a c 0).answerA 0)
    ∨ (s.a.ready = true ∧ s.windowCheck false = none ∧ s.readMemData =
        s.advanceMemIdx.answerA (windowElement s.cfg s.a.mode s.mem s.a.memSel s.a.memIdx.toNat)) := by
  cases hr : s.a.ready <;> cases hc : s.windowCheck false <;> simp [State.readMemData, hr, hc]

/-- A MEM_DATA write does nothing in reset, raises, or stores the element and advances. -/
theorem State.writeMemData_cases (s : State) (v : Word) :
    (s.a.ready = false ∧ s.writeMemData v = s)
    ∨ (s.a.ready = true ∧ ∃ c, s.windowCheck true = some c ∧ s.writeMemData v = s.raise .a c 0)
    ∨ (s.a.ready = true ∧ s.windowCheck true = none ∧ s.writeMemData v =
        { s.advanceMemIdx with mem := windowStore s.cfg s.mem s.a.memSel s.a.memIdx.toNat v }) := by
  cases hr : s.a.ready <;> cases hc : s.windowCheck true <;> simp [State.writeMemData, hr, hc]

/-- An RD_DATA read answers 0 in reset, answers 0 and raises, or answers the slot's element and advances. -/
theorem State.readRdData_cases (s : State) :
    (s.b.ready = false ∧ s.readRdData = s.answerB 0)
    ∨ (s.b.ready = true ∧ ∃ c, s.readCheck (slotSelect s.b.active s.b.rdSel) = some c
        ∧ s.readRdData = (s.raise .b c 0).answerB 0)
    ∨ (s.b.ready = true ∧ s.readCheck (slotSelect s.b.active s.b.rdSel) = none ∧ s.readRdData =
        s.advanceRdIdx.answerB
          (frameWord s.b.mode (elem (s.mem.slot (slotSelect s.b.active s.b.rdSel)) s.b.rdIdx.toNat))) := by
  cases hr : s.b.ready <;> cases hc : s.readCheck (slotSelect s.b.active s.b.rdSel) <;>
    simp [State.readRdData, hr, hc]

/-- A plain read of port A answers 0 in reset, a free value for a diagnostic counter, or the register's word. -/
theorem State.readRegisterA_cases {s : State} {off : BitVec 10} (ho : off ≠ offData) :
    (s.a.ready = false ∧ s.readRegisterA off = s.answerA 0)
    ∨ (s.a.ready = true ∧ ∃ r, diagRegisterA s.a (byteOffset off) = some r
        ∧ s.readRegisterA off = { s.answerA (Config.diagRead s.draws r) with draws := s.draws + 1 })
    ∨ (s.a.ready = true ∧ diagRegisterA s.a (byteOffset off) = none
        ∧ s.readRegisterA off = s.answerA (registerA s.cfg s.a (byteOffset off))) := by
  cases hr : s.a.ready <;> cases hc : diagRegisterA s.a (byteOffset off) <;>
    simp [State.readRegisterA, State.drawDiag, State.answerA, hr, ho, hc]

/-- A plain read of port B, likewise. -/
theorem State.readRegisterB_cases {s : State} {off : BitVec 10} (ho : off ≠ offData) :
    (s.b.ready = false ∧ s.readRegisterB off = s.answerB 0)
    ∨ (s.b.ready = true ∧ ∃ r, diagRegisterB s.b (byteOffset off) = some r
        ∧ s.readRegisterB off = { s.answerB (Config.diagRead s.draws r) with draws := s.draws + 1 })
    ∨ (s.b.ready = true ∧ diagRegisterB s.b (byteOffset off) = none
        ∧ s.readRegisterB off = s.answerB (registerB s.cfg s.b (byteOffset off))) := by
  cases hr : s.b.ready <;> cases hc : diagRegisterB s.b (byteOffset off) <;>
    simp [State.readRegisterB, State.drawDiag, State.answerB, hr, ho, hc]

/-! ## One step -/

/-- What a step that answers a next state has done: an agent's step in turn, or the head of the schedule. -/
theorem step_cases {s t : State} (h : step s = .next t) :
    (s.sched = [] ∧ t = agentStep s.turn { s with turn := nextTurn s.turn })
    ∨ (∃ r es i, s.sched = .request r :: es ∧ decodeRequest r = .ok i ∧ exec i { s with sched := es } = .next t)
    ∨ (∃ g es, s.sched = .agent g :: es ∧ t = agentStep g { s with sched := es })
    ∨ (∃ v es, s.sched = .offer v :: es ∧ t = { s with sched := es, adcOffered := s.adcOffered ++ [v] })
    ∨ (∃ l es, s.sched = .resetPin l :: es ∧ t = resetPin l { s with sched := es })
    ∨ (∃ l es, s.sched = .strap l :: es ∧ t = { s with sched := es, modeStrap := l }) := by
  cases hs : s.sched with
  | nil => simp [step, hs] at h; simp [h]
  | cons e es =>
    cases e with
    | request r =>
      simp only [step, hs, runEvent, runRequest] at h
      split at h
      · rename_i i hi
        exact .inr (.inl ⟨r, es, i, rfl, hi, h⟩)
      · cases h
    | agent g => simp [step, hs, runEvent] at h; simp [h]
    | offer v => simp [step, hs, runEvent] at h; simp [h]
    | resetPin l => simp [step, hs, runEvent] at h; simp [h]
    | strap l => simp [step, hs, runEvent] at h; simp [h]

end Sys2Proof.Machine
end

