-- ==== Sys2Proof/Laws/PerInstr.lean ====
section
/-! SUPPORT. A family of statements about every instruction as syntax: the format of its encoding. -/

namespace Sys2Proof.Laws.EncodeFormat

/-- The port an instruction stands on, by its name in the opcode table. -/
def portOfName : Instr → Port
  | .aNopA | .aCapture | .aFilter | .aWindow | .aFft | .aPower | .aDbconv | .aSpectrum | .aEdge
  | .aPublish | .aRun | .aReadMemData | .aWriteMemData _ | .aWriteCmdA _ | .aWriteErrA _
  | .aWriteMemSel _ | .aWriteMemIdx _ | .aReadOther _ | .aWriteOther _ _ => .a
  | .bNopB | .bPop | .bSwap | .bReadRdData | .bWriteCmdB _ | .bWriteErrB _ | .bWriteRdSel _
  | .bWriteRdIdx _ | .bReadOther _ | .bWriteOther _ _ => .b

/-- Whether an instruction is a command (R161) or a transaction (R171). -/
def isCommand : Instr → Bool
  | .aNopA | .aCapture | .aFilter | .aWindow | .aFft | .aPower | .aDbconv | .aSpectrum | .aEdge
  | .aPublish | .aRun | .bNopB | .bPop | .bSwap => true
  | .aReadMemData | .aWriteMemData _ | .aWriteCmdA _ | .aWriteErrA _ | .aWriteMemSel _ | .aWriteMemIdx _
  | .aReadOther _ | .aWriteOther _ _ | .bReadRdData | .bWriteCmdB _ | .bWriteErrB _ | .bWriteRdSel _
  | .bWriteRdIdx _ | .bReadOther _ | .bWriteOther _ _ => false

/-- An encoding stands on the instruction's port, and is one command word of 4 bytes, or a transaction word with
its data, 6 bytes. -/
def Statement (i : Instr) : Prop :=
  (encode i).port = portOfName i
    ∧ (encode i).bytes.length = (if isCommand i then 4 else 6)

theorem aNopA : Statement .aNopA := ⟨rfl, by simp [encode, Encoding.bytes, bytesLE, isCommand]⟩
theorem aCapture : Statement .aCapture := ⟨rfl, by simp [encode, Encoding.bytes, bytesLE, isCommand]⟩
theorem aFilter : Statement .aFilter := ⟨rfl, by simp [encode, Encoding.bytes, bytesLE, isCommand]⟩
theorem aWindow : Statement .aWindow := ⟨rfl, by simp [encode, Encoding.bytes, bytesLE, isCommand]⟩
theorem aFft : Statement .aFft := ⟨rfl, by simp [encode, Encoding.bytes, bytesLE, isCommand]⟩
theorem aPower : Statement .aPower := ⟨rfl, by simp [encode, Encoding.bytes, bytesLE, isCommand]⟩
theorem aDbconv : Statement .aDbconv := ⟨rfl, by simp [encode, Encoding.bytes, bytesLE, isCommand]⟩
theorem aSpectrum : Statement .aSpectrum := ⟨rfl, by simp [encode, Encoding.bytes, bytesLE, isCommand]⟩
theorem aEdge : Statement .aEdge := ⟨rfl, by simp [encode, Encoding.bytes, bytesLE, isCommand]⟩
theorem aPublish : Statement .aPublish := ⟨rfl, by simp [encode, Encoding.bytes, bytesLE, isCommand]⟩
theorem aRun : Statement .aRun := ⟨rfl, by simp [encode, Encoding.bytes, bytesLE, isCommand]⟩
theorem bNopB : Statement .bNopB := ⟨rfl, by simp [encode, Encoding.bytes, bytesLE, isCommand]⟩
theorem bPop : Statement .bPop := ⟨rfl, by simp [encode, Encoding.bytes, bytesLE, isCommand]⟩
theorem bSwap : Statement .bSwap := ⟨rfl, by simp [encode, Encoding.bytes, bytesLE, isCommand]⟩
theorem aReadMemData : Statement .aReadMemData := ⟨rfl, by simp [encode, Encoding.bytes, bytesLE, isCommand]⟩
theorem aWriteMemData (v : Word) : Statement (.aWriteMemData v) := ⟨rfl, by simp [encode, Encoding.bytes, bytesLE, isCommand]⟩
theorem aWriteCmdA (v : Word) : Statement (.aWriteCmdA v) := ⟨rfl, by simp [encode, Encoding.bytes, bytesLE, isCommand]⟩
theorem aWriteErrA (v : Word) : Statement (.aWriteErrA v) := ⟨rfl, by simp [encode, Encoding.bytes, bytesLE, isCommand]⟩
theorem aWriteMemSel (v : Word) : Statement (.aWriteMemSel v) := ⟨rfl, by simp [encode, Encoding.bytes, bytesLE, isCommand]⟩
theorem aWriteMemIdx (v : Word) : Statement (.aWriteMemIdx v) := ⟨rfl, by simp [encode, Encoding.bytes, bytesLE, isCommand]⟩
theorem aReadOther (off : BitVec 10) : Statement (.aReadOther off) := ⟨rfl, by simp [encode, Encoding.bytes, bytesLE, isCommand]⟩
theorem aWriteOther (off : BitVec 10) (v : Word) : Statement (.aWriteOther off v) := ⟨rfl, by simp [encode, Encoding.bytes, bytesLE, isCommand]⟩
theorem bReadRdData : Statement .bReadRdData := ⟨rfl, by simp [encode, Encoding.bytes, bytesLE, isCommand]⟩
theorem bWriteCmdB (v : Word) : Statement (.bWriteCmdB v) := ⟨rfl, by simp [encode, Encoding.bytes, bytesLE, isCommand]⟩
theorem bWriteErrB (v : Word) : Statement (.bWriteErrB v) := ⟨rfl, by simp [encode, Encoding.bytes, bytesLE, isCommand]⟩
theorem bWriteRdSel (v : Word) : Statement (.bWriteRdSel v) := ⟨rfl, by simp [encode, Encoding.bytes, bytesLE, isCommand]⟩
theorem bWriteRdIdx (v : Word) : Statement (.bWriteRdIdx v) := ⟨rfl, by simp [encode, Encoding.bytes, bytesLE, isCommand]⟩
theorem bReadOther (off : BitVec 10) : Statement (.bReadOther off) := ⟨rfl, by simp [encode, Encoding.bytes, bytesLE, isCommand]⟩
theorem bWriteOther (off : BitVec 10) (v : Word) : Statement (.bWriteOther off v) := ⟨rfl, by simp [encode, Encoding.bytes, bytesLE, isCommand]⟩

end Sys2Proof.Laws.EncodeFormat
end

