-- ==== Sys2Proof/Laws/Runs.lean ====
section
/-! SUPPORT. The small lemmas of the runs in Safety.lean: sampling loops move by move, and what a named agent's move
is. -/

namespace Sys2Proof.Machine

/-! ## The samples a list of moves offers -/

@[simp] theorem samplesOffered_nil : samplesOffered [] = [] := rfl

@[simp] theorem samplesOffered_agent (g : Agent) (es : List Event) :
    samplesOffered (.agent g :: es) = samplesOffered es := rfl

@[simp] theorem samplesOffered_offer (v : Half) (es : List Event) :
    samplesOffered (.offer v :: es) = v :: samplesOffered es := rfl

/-- A sampling move is one of three. -/
theorem isSampling_cases {e : Event} (h : isSampling e = true) :
    e = .agent .producerEngine ∨ e = .agent .adcSource ∨ ∃ v, e = .offer v := by
  cases e with
  | agent g => cases g <;> simp_all [isSampling]
  | offer v => exact .inr (.inr ⟨v, rfl⟩)
  | request r => simp [isSampling] at h
  | resetPin l => simp [isSampling] at h
  | strap l => simp [isSampling] at h

/-! ## Runs -/

@[simp] theorem producerSteps_zero (s : State) : producerSteps 0 s = s := rfl

@[simp] theorem producerSteps_succ (n : Nat) (s : State) :
    producerSteps (n + 1) s = producerSteps n (producerStep s) := rfl

/-- An engine whose step changes nothing stays where it is however often it is tried. -/
theorem producerSteps_fixed {s : State} (h : producerStep s = s) (n : Nat) : producerSteps n s = s := by
  induction n with
  | zero => rfl
  | succ n ih => rw [producerSteps_succ, h, ih]

/-- A run whose first move is a named agent's. -/
theorem run_agent {s : State} {g : Agent} {es : List Event} (h : s.sched = .agent g :: es) (n : Nat) :
    Host.Core.run Sys2Proof.core (n + 1) s = Host.Core.run Sys2Proof.core n (agentStep g { s with sched := es }) := by
  simp [Host.Core.run, Sys2Proof.core, step, h, runEvent]

/-- A run whose first move is the arrival of a sample. -/
theorem run_offer {s : State} {v : Half} {es : List Event} (h : s.sched = .offer v :: es) (n : Nat) :
    Host.Core.run Sys2Proof.core (n + 1) s
      = Host.Core.run Sys2Proof.core n { s with sched := es, adcOffered := s.adcOffered ++ [v] } := by
  simp [Host.Core.run, Sys2Proof.core, step, h, runEvent]

/-- Where the next move is an agent's, the step is that agent's, with the turn or the schedule moved on. -/
theorem step_of_mover {s : State} {g : Agent} (h : s.mover = some g) :
    ∃ es u, step s = .next (agentStep g { s with sched := es, turn := u }) := by
  unfold State.mover at h
  split at h
  · rename_i hs
    exact ⟨[], nextTurn s.turn, by cases h; simp [step, hs]⟩
  · rename_i g' es hs
    exact ⟨es, s.turn, by cases h; simp [step, hs, runEvent]⟩
  · cases h

end Sys2Proof.Machine
end

