-- ==== Sys2Proof/Tests/Slice0.lean ====
section
/-! SUPPORT. Tests: ill-formed terms, words written out, the vectors of 95_test_vectors.md on small instances, and
for each statement with hypotheses a state and operands that meet them (`witness_…`). -/

namespace Sys2Proof.Tests

open Sys2Proof Sys2Proof.Machine

/-! ## Helpers -/

/-- The instance P8 of 95_test_vectors.md, without `FRAME_RATE = 1`. -/
def p8 : Params where
  adcBits := 12
  q15Shift := 4
  alphaQ15 := 16384
  rawSamples := 16
  decimateN := 2
  log2Fft := 3
  oscSamples := 4
  frameRate := 2
  dbMin := -100
  dbMax := 0
  dbEpsExp := 6
  syncStages := 2

/-- The instance P4F of 95_test_vectors.md. -/
def p4f : Params := { p8 with rawSamples := 8, log2Fft := 2, oscSamples := 2, frameRate := 1 }

/-- The least instance: one sample, two-point FFT. -/
def p2 : Params := { p8 with rawSamples := 1, decimateN := 1, log2Fft := 1, oscSamples := 1, frameRate := 1 }

/-- Buffers of zeros. -/
def zeros (p : Params) : Memory where
  raw := List.replicate p.rawbufLen 0
  filt := List.replicate p.downsampled 0
  work := List.replicate p.fftSize ⟨0, 0⟩
  mag := List.replicate p.fftSize 0
  db := List.replicate p.bins 0
  staging := List.replicate p.slotCap 0
  slot0 := List.replicate p.slotCap 0
  slot1 := List.replicate p.slotCap 0

/-- An instance with nothing in progress, in a mode, its buffers zero. -/
def at0 (p : Params) (m : Mode) : State :=
  { State.initial p (modeBit m) with mem := zeros p }

/-- The state with domain A changed. -/
def withA (s : State) (f : DomainA → DomainA) : State := { s with a := f s.a }

/-- The state with domain B changed. -/
def withB (s : State) (f : DomainB → DomainB) : State := { s with b := f s.b }

/-- A test of the next state of an outcome. -/
def onNext (o : Host.Outcome State Fault Refusal) (f : State → Bool) : Bool :=
  match o with
  | .next t => f t
  | .fault _ => false
  | .refused _ => false

/-- A frame published and pending in domain B, the state in phase (c). -/
def pending (p : Params) (m : Mode) : State :=
  withB (withA (at0 p m) fun a => { a with req := true, pubCnt := 1 }) fun b => { b with reqSync := true }

/-- Signed values as 16-bit elements. -/
def halves (xs : List Int) : List Half := xs.map u16

/-- Signed pairs as elements of WORK. -/
def pairs (xs : List (Int × Int)) : List Pair := xs.map fun x => ⟨u16 x.1, u16 x.2⟩

/-! ## WellFormed: each check refuses its ill-formed terms -/

theorem test_wellFormed_refuses :
    (Instr.aReadOther 0x016).wellFormed = false ∧ (Instr.aWriteOther 0x008 0).wellFormed = false
    ∧ (Instr.aWriteOther 0x00A 0).wellFormed = false ∧ (Instr.aWriteOther 0x014 0).wellFormed = false
    ∧ (Instr.aWriteOther 0x015 0).wellFormed = false ∧ (Instr.aWriteOther 0x016 0).wellFormed = false
    ∧ (Instr.bReadOther 0x016).wellFormed = false ∧ (Instr.bWriteOther 0x008 0).wellFormed = false
    ∧ (Instr.bWriteOther 0x00A 0).wellFormed = false ∧ (Instr.bWriteOther 0x014 0).wellFormed = false
    ∧ (Instr.bWriteOther 0x015 0).wellFormed = false := by decide

/-- R414: a write of RD_DATA is an `other` write. -/
theorem test_wellFormed_accepts :
    (Instr.bWriteOther 0x016 1).wellFormed = true ∧ (Instr.aReadOther 0x000).wellFormed = true
    ∧ (Instr.aWriteOther 0x3FF 5).wellFormed = true := by decide

/-! ## Decoding: a word of every row, bit by bit from R163, R164, R171 -/

theorem test_decode_commands_a :
    [0x00000000, 0x00000001, 0x00000002, 0x00000003, 0x00000004, 0x00000005, 0x00000006, 0x00000007, 0x00000008,
      0x00000009, 0x0000000A].map (fun w => (decodeCommand .a w).toOption)
    = [some .aNopA, some .aCapture, some .aFilter, some .aWindow, some .aFft, some .aPower, some .aDbconv,
      some .aSpectrum, some .aEdge, some .aPublish, some .aRun] := by decide

theorem test_decode_commands_b :
    [0x00000000, 0x00000001, 0x00000002].map (fun w => (decodeCommand .b w).toOption)
    = [some .bNopB, some .bPop, some .bSwap] := by decide

/-- R165, R166: a reserved opcode, and a legal one with a bit of RSVD set, are refused by name. -/
theorem test_decode_illegal :
    decodeCommand .a 0x0000000B = .error (.illegalCommand 0x0000000B)
    ∧ decodeCommand .a 0x00000101 = .error (.illegalCommand 0x00000101)
    ∧ decodeCommand .a 0x80000000 = .error (.illegalCommand 0x80000000)
    ∧ decodeCommand .b 0x00000003 = .error (.illegalCommand 0x00000003) := by decide

theorem test_decode_transactions_a :
    decodeTransaction .a 0b0000001011000 7 = .aReadMemData
    ∧ decodeTransaction .a 0b1000001011000 7 = .aWriteMemData 7
    ∧ decodeTransaction .a 0b1000000100000 7 = .aWriteCmdA 7
    ∧ decodeTransaction .a 0b1000000101000 7 = .aWriteErrA 7
    ∧ decodeTransaction .a 0b1000001010000 7 = .aWriteMemSel 7
    ∧ decodeTransaction .a 0b1000001010100 7 = .aWriteMemIdx 7
    ∧ decodeTransaction .a 0b0000000100111 7 = .aReadOther 0x009
    ∧ decodeTransaction .a 0b1111111111100 7 = .aWriteOther 0x3FF 7 := by decide

theorem test_decode_transactions_b :
    decodeTransaction .b 0b0000001011011 7 = .bReadRdData
    ∧ decodeTransaction .b 0b1000000100000 7 = .bWriteCmdB 7
    ∧ decodeTransaction .b 0b1000000101000 7 = .bWriteErrB 7
    ∧ decodeTransaction .b 0b1000001010000 7 = .bWriteRdSel 7
    ∧ decodeTransaction .b 0b1000001010100 7 = .bWriteRdIdx 7
    ∧ decodeTransaction .b 0b0000000110000 7 = .bReadOther 0x00C
    ∧ decodeTransaction .b 0b1000001011000 7 = .bWriteOther 0x016 7 := by decide

/-- Bytes are read least significant first, and no other length is an instruction. -/
theorem test_decode_bytes :
    decodeBytes .a [0x58, 0x10, 0xFF, 0x7F, 0xFF, 0xFF] = .ok (.aWriteMemData 0xFFFF7FFF)
    ∧ decodeBytes .a [0x0A, 0x00, 0x00, 0x00] = .ok .aRun
    ∧ decodeBytes .a [0x58, 0x30, 0, 0, 0, 0] = .error (.transactionWord 0x3058)
    ∧ decodeBytes .a [0x00] = .error (.length 1) := by decide

/-! ## The filter (2.1 of 95_test_vectors.md) -/

/-- F2. -/
theorem test_filter_f2 : filterBuffer p4f (List.replicate 8 2304) = [3072, 3840, 4032, 4080] := by decide

/-- F3: saturation, floor shifts, a sample filtered but not emitted. -/
theorem test_filter_f3 :
    filterBuffer { p4f with q15Shift := 5, alphaQ15 := 8192, rawSamples := 9 }
      [4095, 0, 4095, 0, 2048, 2048, 2048, 2048, 1] = halves [-2049, -3201, -1801, -1014] := by decide

/-! ## The spectrum engine (2.2 to 2.7) -/

theorem test_hann_8 : (List.range 8).map (hann p8) = [0, 6169, 20030, 31145, 31145, 20030, 6169, 0] := by
  decide +kernel

/-- The clamp of `HANN[255]` at the default size, and the table of two zeros. -/
theorem test_hann_ends :
    hann { p8 with log2Fft := 9 } 255 = 32767 ∧ hann { p8 with log2Fft := 9 } 254 = 32765
    ∧ hann p2 0 = 0 ∧ hann p2 1 = 0 := by decide +kernel

theorem test_twid :
    (List.range 4).map (twid p8) = pairs [(32767, 0), (23170, -23170), (0, -32768), (-23170, -23170)]
    ∧ twid { p8 with log2Fft := 9 } 255 = ⟨u16 (-32766), u16 (-402)⟩ := by decide +kernel

theorem test_window :
    windowBuffer p8 (halves [32767, -32768, 32767, -32768, 32767, -32768, 32767, -32768])
      = pairs [(0, 0), (-6169, 0), (20029, 0), (-31145, 0), (31144, 0), (-20030, 0), (6168, 0), (0, 0)] := by
  decide +kernel

/-- X5: saturation and the floor bias of negative values. -/
theorem test_fft_x5 :
    fftBuffer p8 (pairs (List.replicate 8 (-32768, -32768)))
      = pairs [(-32768, -32768), (-1, 0), (-1, 0), (-1, -1), (-1, -1), (0, 0), (0, -1), (0, -1)] := by
  decide +kernel

/-- X7. -/
theorem test_fft_x7 :
    fftBuffer p8 (pairs [(16384, 0), (11585, 0), (0, 0), (-11585, 0), (-16384, 0), (-11585, 0), (0, 0), (11585, 0)])
      = pairs [(-1, 0), (8191, 0), (0, 0), (0, 0), (0, 0), (1, 0), (0, 0), (8192, 0)] := by
  decide +kernel

theorem test_power :
    [(64, 64), (91, 0), (90, 0), (4095, 0), (32767, 0), (-32768, -32768), (-3936, -1631)].map
      (fun x : Int × Int => power ⟨u16 x.1, u16 x.2⟩) = [1, 1, 0, 2047, 32767, 32767, 2215] := by decide

theorem test_dbfun :
    [-5, 0, 1, 2, 7, 8, 26, 3253, 3254, 32767].map (dbfun p8) = [-100, -100, -36, -33, -27, -27, -21, -1, 0, 0] := by
  decide +kernel

/-- The SPECTRUM example of R275. -/
theorem test_spectrum :
    ({ at0 p8 .spectrum with mem := { zeros p8 with filt := List.replicate 8 16384 } } : State).spectrumBody.mem.db
      = halves [0, -2, -22, -36] := by decide +kernel

/-! ## Commands: acceptance and refusal (R446), the engines -/

/-- R325: CAPTURE is accepted; the engine's next step begins the phase and enables the ADC. -/
theorem test_capture :
    onNext (exec .aCapture (at0 p8 .spectrum)) (fun t =>
      t.a.busy && t.a.op == 0x01 && (producerStep t).a.adcEn && decide ((producerStep t).a.phase = .capturing)
        && decide ((producerStep t).a.pos = .capture 0)) = true := by decide

/-- F10: FILTER in OSCILLOSCOPE mode is a MODE error. -/
theorem test_filter_mode :
    onNext (exec .aFilter (at0 p8 .oscilloscope)) (fun t => t.a.err.word == 0x0203 && !t.a.busy) = true := by decide

/-- 2.8: EDGE in SPECTRUM mode is a MODE error. -/
theorem test_edge_mode :
    onNext (exec .aEdge (at0 p8 .spectrum)) (fun t => t.a.err.word == 0x0803 && !t.a.busy) = true := by decide

/-- E1, E3, E6: the threshold is strict; R303: the count saturates. -/
theorem test_edge_trigger :
    triggers 0 31 = true ∧ triggers 0 30 = false ∧ triggers 406 4091 = true ∧ triggers 407 4095 = false
    ∧ edgeNext 0 500 2 = .edgeFill 0 3 ∧ edgeNext 500 0 1 = .edgeScan 0 2
    ∧ edgeNext 0 500 0xFFFFFFFF = .edgeFill 0 0xFFFFFFFF := by decide

/-- X-6: RUN while RUN executes is a BUSY error. -/
theorem test_run_busy :
    onNext (exec .aRun (withA (at0 p8 .spectrum) fun a => { a with busy := true, running := true, op := 0x0A }))
      (fun t => t.a.err.word == 0x0A02) = true := by decide

/-- 2.12: FRAME_CNT with FRAME_RATE 3. -/
theorem test_run_divider :
    [0, 1, 2].map (nextFrameCnt { p8 with frameRate := 3 }) = [1, 2, 0] := by decide

/-- 2.9: PUBLISH in OSCILLOSCOPE mode copies the samples. -/
theorem test_publish :
    onNext (exec .aPublish { at0 p4f .oscilloscope with mem := { zeros p4f with raw := [7, 8, 9, 9, 9, 9, 9, 9] } })
      (fun t => decide ((producerSteps 4 t).mem.staging = [7, 8]) && (producerSteps 4 t).a.req
        && (producerSteps 4 t).a.pubCnt == 1 && !(producerSteps 4 t).a.stagingFree) = true := by decide

/-- 2.9: POP of a pending frame. -/
theorem test_pop :
    onNext (exec .bPop { pending p4f .oscilloscope with mem := { zeros p4f with staging := [3, 4] } })
      (fun t => decide ((consumerSteps 3 t).mem.slot1 = [3, 4]) && decide ((consumerSteps 3 t).mem.slot0 = [0, 0])
        && (consumerSteps 3 t).b.fresh && (consumerSteps 3 t).b.popCnt == 1) = true := by decide

/-- 2.9: POP while a popped frame waits is a SEQ error. -/
theorem test_pop_seq :
    onNext (exec .bPop (withB (at0 p8 .spectrum) fun b => { b with fresh := true }))
      (fun t => t.b.err.word == 0x0107) = true := by decide

/-- 2.9: SWAP with no popped frame is a SEQ error; with one it toggles ACTIVE. -/
theorem test_swap :
    onNext (exec .bSwap (at0 p8 .spectrum)) (fun t => t.b.err.word == 0x0207 && !t.b.active) = true
    ∧ onNext (exec .bSwap (withB (at0 p8 .spectrum) fun b => { b with fresh := true }))
      (fun t => t.b.active && !t.b.fresh) = true := by decide

/-! ## Transactions (2.10, 2.11) -/

/-- W6. -/
theorem test_write_memData :
    onNext (exec (.aWriteMemData 0xFFFF7FFF) (withA (at0 p8 .spectrum) fun a => { a with memSel := 2, memIdx := 5 }))
      (fun t => decide (pairElem t.mem.work 5 = ⟨32767, 0xFFFF⟩) && t.a.memIdx == 6) = true := by decide

/-- W9: a write of DB is READ_ONLY; W12: WIN_BUSY comes before it. -/
theorem test_write_memData_errors :
    onNext (exec (.aWriteMemData 5) (withA (at0 p8 .spectrum) fun a => { a with memSel := 4 }))
      (fun t => t.a.err.word == 6 && t.a.memIdx == 0) = true
    ∧ onNext (exec (.aWriteMemData 1) (withA (at0 p8 .spectrum) fun a => { a with memSel := 4, busy := true }))
      (fun t => t.a.err.word == 5) = true := by decide

/-- W13, W14: the ROM tables through the window. -/
theorem test_read_memData :
    onNext (exec .aReadMemData (withA (at0 p8 .spectrum) fun a => { a with memSel := 6, memIdx := 1 }))
      (fun t => t.a.rdata == 0xA57E5A82) = true
    ∧ onNext (exec .aReadMemData (withA (at0 p8 .spectrum) fun a => { a with memSel := 5, memIdx := 3 }))
      (fun t => t.a.rdata == 0x000079A9) = true := by decide +kernel

/-- W8: RANGE, the index not advanced. -/
theorem test_read_memData_range :
    onNext (exec .aReadMemData (withA (at0 p8 .spectrum) fun a => { a with memSel := 1, memIdx := 8, rdata := 1 }))
      (fun t => t.a.rdata == 0 && t.a.err.word == 4 && t.a.memIdx == 8) = true := by decide

/-- X-1, X-2: the first error is kept, MULTI set. -/
theorem test_write_cmdA_illegal :
    onNext (exec (.aWriteCmdA 0x100) (at0 p8 .spectrum)) (fun t => t.a.err.word == 0x0001
      && onNext (exec (.aWriteCmdA 0x0B) t) (fun u => u.a.err.word == 0x0081)) = true := by decide

/-- 2.9: an illegal word on port B. -/
theorem test_write_cmdB_illegal :
    onNext (exec (.bWriteCmdB 0x101) (at0 p8 .spectrum)) (fun t => t.b.err.word == 0x0101) = true := by decide

/-- W15. -/
theorem test_write_errA :
    onNext (exec (.aWriteErrA 0xFFFFFFFF) (withA (at0 p8 .spectrum) fun a => { a with err := ⟨2, true, 0x0A⟩ }))
      (fun t => t.a.err.word == 0) = true
    ∧ ErrorRecord.word ⟨2, true, 0x0A⟩ = 0x0A82 := by decide

theorem test_write_errB :
    onNext (exec (.bWriteErrB 0) (withB (at0 p8 .spectrum) fun b => { b with err := ⟨8, true, 1⟩ }))
      (fun t => t.b.err.word == 0) = true := by decide

/-- W5. -/
theorem test_write_selects :
    onNext (exec (.aWriteMemSel 0x13) (at0 p8 .spectrum)) (fun t => t.a.memSel == 3) = true
    ∧ onNext (exec (.aWriteMemIdx 0x10005) (at0 p8 .spectrum)) (fun t => t.a.memIdx == 5) = true
    ∧ onNext (exec (.bWriteRdSel 7) (at0 p8 .spectrum)) (fun t => t.b.rdSel == 3) = true
    ∧ onNext (exec (.bWriteRdIdx 0x10005) (at0 p8 .spectrum)) (fun t => t.b.rdIdx == 5) = true := by decide

/-- W1, W2, and CFG0 of P8 in OSCILLOSCOPE mode. -/
theorem test_read_otherA :
    onNext (exec (.aReadOther 0x000) (at0 p8 .spectrum)) (fun t => t.a.rdata == 0x44535031) = true
    ∧ onNext (exec (.aReadOther 0x008) (at0 p8 .spectrum)) (fun t => t.a.rdata == 0) = true
    ∧ onNext (exec (.aReadOther 0x001) (at0 p8 .oscilloscope)) (fun t => t.a.rdata == 0x0603410C) = true := by decide

/-- STATUS_B, and an unmapped offset. -/
theorem test_read_otherB :
    onNext (exec (.bReadOther 0x009) (at0 p8 .oscilloscope)) (fun t => t.b.rdata == 0x101) = true
    ∧ onNext (exec (.bReadOther 0x002) (at0 p8 .oscilloscope)) (fun t => t.b.rdata == 0) = true := by decide

/-- W16. -/
theorem test_read_rdData :
    onNext (exec .bReadRdData
        { withB (at0 p8 .oscilloscope) fun b => { b with active := true, rdSel := 2 } with
          mem := { zeros p8 with slot1 := [500, 0, 0, 0] } })
      (fun t => t.b.rdata == 0x1F4 && t.b.rdIdx == 1) = true := by decide

/-- W20: HAZARD before RANGE. -/
theorem test_read_rdData_hazard :
    onNext (exec .bReadRdData (withB (at0 p8 .spectrum) fun b => { b with busy := true, rdSel := 3, rdIdx := 9 }))
      (fun t => t.b.rdata == 0 && t.b.err.word == 8 && t.b.rdIdx == 9) = true := by decide

/-! ## The step -/

/-- A program word placed by `withFetchWord` is what the next step runs. -/
theorem test_step_withFetchWord :
    onNext (step ((at0 p8 .spectrum).withFetchWord 32 0x00000002)) (fun t => t.a.busy && t.a.op == 0x02) = true
    ∧ onNext (step ((withA (at0 p8 .spectrum) fun a => { a with memSel := 3 }).withFetchWord 16 0x1050))
      (fun t => t.a.memSel == 0) = true := by decide

/-- R126: an access of two bytes is refused by name. -/
theorem test_step_accessSize :
    step { at0 p8 .spectrum with sched := [.request ⟨.a, false, 0x024, 2, 0⟩] } = .refused (.accessSize 2) := by
  rfl

/-- R15: `DOWNSAMPLED` other than `FFT_SIZE` builds nothing. -/
theorem test_build_refuses :
    build ⟨p8, 2048, 8, 4, 3, 10⟩ false = .error .fatalConfiguration ∧ ParamSet.valid ⟨p8, 2048, 8, 8, 3, 10⟩ = true := by
  decide

/-! ## Witnesses: the hypotheses of each statement, met by concrete states and operands -/

theorem witness_DecodingInvertsEncoding :
    (Instr.aWriteOther 0x3FF 0xFFFFFFFF).wellFormed = true ∧ (Instr.bWriteOther 0x016 0).wellFormed = true
    ∧ Instr.aRun.wellFormed = true := by decide

theorem witness_CommandDecodingIsTheOpcodeMap :
    decodeCommand .a 0x0A = .ok .aRun ∧ decodeCommand .b 0x02 = .ok .bSwap
    ∧ (0x0B : Word).toNat / 256 = 0 ∧ ¬ (0x0B : Word).toNat % 256 ≤ 0x0A ∧ (0x100 : Word).toNat / 256 ≠ 0 := by
  decide

theorem witness_TransactionDecodingIgnoresLowAddressBits :
    (0x105B : BitVec 13).toNat / 4 = (0x1058 : BitVec 13).toNat / 4 ∧ (0x0FFF : BitVec 13).toNat < 0x1000
    ∧ ¬ (0x1000 : BitVec 13).toNat < 0x1000 := by decide

/-- A write of CMD_A at an address with its ignored bits set. -/
def issueRequest : Request := ⟨.a, true, 0x023, 4, 0x07⟩

theorem witness_StepRunsTheDecodedInstruction :
    ({ at0 p8 .spectrum with sched := [.request issueRequest] } : State).sched = .request issueRequest :: []
    ∧ decodeRequest issueRequest = .ok (.aWriteCmdA 0x07) := by decide

theorem witness_StepRunsTheIssuedCommand :
    ({ at0 p8 .spectrum with sched := [.request issueRequest] } : State).sched = .request issueRequest :: []
    ∧ issueRequest.size = 4 ∧ issueRequest.write = true ∧ issueRequest.addr.toNat / 4 * 4 = 0x020
    ∧ decodeCommand issueRequest.port issueRequest.data = .ok .aSpectrum := by decide

/-- Both outcomes of the statement occur. -/
theorem witness_StepStopsOnlyAtForeignAccessSizes :
    onNext (step (at0 p8 .spectrum)) (fun _ => true) = true
    ∧ ({ at0 p8 .spectrum with sched := [.request ⟨.a, false, 0x024, 2, 0⟩] } : State).sched
        = .request ⟨.a, false, 0x024, 2, 0⟩ :: [] ∧ (2 : Nat) ≠ 4 := by decide

/-- Every branch of both clauses has a state and a word. -/
theorem witness_CommandIssueFollowsTheOrderOfChecks :
    (at0 p8 .spectrum).a.ready = true ∧ (at0 p8 .spectrum).b.ready = true
    ∧ (at0 p8 .spectrum).a.busy = false ∧ (at0 p8 .oscilloscope).a.mode = .oscilloscope
    ∧ (0x0B : Word).toNat % 256 > 0x0A ∧ (0x0A : Word).toNat % 256 = 0x0A ∧ (0x100 : Word).toNat / 256 ≠ 0
    ∧ (withA (at0 p8 .spectrum) fun a => { a with busy := true }).a.busy = true
    ∧ (withB (at0 p8 .spectrum) fun b => { b with busy := true }).b.ready = true
    ∧ (withB (at0 p8 .spectrum) fun b => { b with fresh := true }).b.fresh = true := by decide

/-- The hypotheses of `WindowMultipliesByTheHannTable`, `FftIsItsStagesOfButterflies`,
`PowerIsTheSaturatedMagnitudeSquared`, `DbconvConvertsEveryBin` and `SpectrumEqualsItsFourCommands`. -/
theorem witness_spectrum_commands :
    (at0 p8 .spectrum).cfg.valid = true ∧ (at0 p8 .spectrum).a.ready = true ∧ (at0 p8 .spectrum).a.busy = false
    ∧ (at0 p8 .spectrum).a.mode = .spectrum ∧ (at0 p8 .spectrum).mem.raw.length = (at0 p8 .spectrum).cfg.rawbufLen
    ∧ (at0 p8 .spectrum).mem.work.length = (at0 p8 .spectrum).cfg.fftSize := by decide

/-- The outputs of the IIR on a list of samples, by the recurrence of the statement. -/
def iirSequence (s : State) : Nat → Int
  | 0 => iirStep s.cfg 0 (s.mem.raw.getD 0 0)
  | i + 1 => iirStep s.cfg (iirSequence s i) (s.mem.raw.getD (i + 1) 0)

theorem witness_FilterEmitsTheDecimatedIir :
    ∃ (s : State) (y : Nat → Int),
      s.cfg.valid = true ∧ s.mem.raw.length = s.cfg.rawbufLen ∧ s.a.ready = true ∧ s.a.busy = false
      ∧ s.a.mode = .spectrum
      ∧ (∀ i, y i =
        max (-32768) (min 32767
          ((max (-32768) (min 32767
              ((((s.mem.raw.getD i 0).toNat : Int) - 2 ^ (s.cfg.adcBits - 1)) * 2 ^ s.cfg.q15Shift)) * s.cfg.alphaQ15
            + (if i = 0 then 0 else y (i - 1)) * (32768 - s.cfg.alphaQ15)) / 32768))) := by
  refine ⟨at0 p8 .spectrum, iirSequence (at0 p8 .spectrum), by decide, by decide, rfl, rfl, rfl, fun i => ?_⟩
  have hc : ∀ v : Int, clamp v (-32768) 32767 = max (-32768) (min 32767 v) := fun v => by
    unfold clamp; omega
  have ha : ∀ v : Int, asr v 15 = v / 32768 := fun v => Int.shiftRight_eq_div_pow v 15
  have hm : ((at0 p8 .spectrum).cfg.adcMid : Int) = 2 ^ ((at0 p8 .spectrum).cfg.adcBits - 1) := rfl
  cases i <;> simp only [iirSequence, iirStep, centre, sat16, hc, ha, hm] <;> simp

/-- The samples of one capture of P4F. -/
def captured : List Half := [0, 4095, 2, 3, 4, 5, 6, 7]

/-- P4F with the samples of one capture and one more on offer. -/
def offered : State := { at0 p4f .spectrum with adcOffered := captured ++ [8] }

theorem witness_CaptureStoresTheSamplesInOrder :
    offered.a.ready = true ∧ offered.a.busy = false ∧ offered.a.waitAdc = false ∧ offered.a.mode = .spectrum
    ∧ offered.mem.raw.length = offered.cfg.rawbufLen ∧ offered.adcOffered = captured ++ [8]
    ∧ captured.length = offered.cfg.rawSamples ∧ captured.all (fun x => decide (x.toNat < 2 ^ offered.cfg.adcBits)) = true := by
  decide +kernel

/-- The engine begins; rounds in which it steps, a sample arrives, the ADC source transfers; it steps once more. -/
def lateRounds (xs : List Half) : List Event :=
  .agent .producerEngine :: xs.flatMap (fun x => [.agent .producerEngine, .offer x, .agent .adcSource]) ++ [.agent .producerEngine]

/-- P4F with one sample on offer; the others come later. -/
def offeredLate : State := { at0 p4f .spectrum with adcOffered := [9] }

/-- The second clause, with samples that come later: the engine idle again at the end of the moves, and still at
work before the last of them. -/
theorem witness_CaptureStoresTheSamplesInOrder_late :
    offeredLate.a.ready = true ∧ offeredLate.a.busy = false ∧ offeredLate.a.waitAdc = false
    ∧ offeredLate.a.mode = .spectrum ∧ offeredLate.mem.raw.length = offeredLate.cfg.rawbufLen
    ∧ (lateRounds captured).all isSampling = true
    ∧ (offeredLate.adcOffered ++ samplesOffered (lateRounds captured)).all
        (fun x => decide (x.toNat < 2 ^ offeredLate.cfg.adcBits)) = true
    ∧ onNext (exec .aCapture offeredLate) (fun s1 =>
        onNext (Host.Core.run Sys2Proof.core (lateRounds captured).length { s1 with sched := lateRounds captured })
          (fun t => !t.a.busy && decide (t.adcOffered = [7]))
        && onNext (Host.Core.run Sys2Proof.core 7 { s1 with sched := (lateRounds captured).take 7 })
          (fun t => t.a.busy)) = true := by decide +kernel

/-- `RunCountsItsCaptures` on both sides of its last two clauses: with FRAME_RATE 2 the count 0 becomes 1 and the
count 1 becomes 0. -/
theorem witness_RunCountsItsCaptures :
    offered.cfg.valid = true ∧ offered.a.ready = true ∧ offered.a.busy = false ∧ offered.a.waitAdc = false
    ∧ offered.a.mode = .spectrum ∧ offered.mem.raw.length = offered.cfg.rawbufLen
    ∧ offered.adcOffered = captured ++ [8] ∧ captured.length = offered.cfg.rawSamples
    ∧ captured.all (fun x => decide (x.toNat < 2 ^ offered.cfg.adcBits)) = true
    ∧ (nextFrameCnt p8 0).toNat ≠ 0 ∧ (nextFrameCnt p8 1).toNat = 0 := by decide +kernel

/-- Samples whose second is the trigger sample: the first it can be at. -/
def stepUp : List Half := [0, 31, 7, 8]

/-- P4F in OSCILLOSCOPE mode with them on offer. -/
def edgeOffered : State := { at0 p4f .oscilloscope with adcOffered := stepUp }

theorem witness_EdgeCapturesAfterTheFirstTrigger :
    (edgeOffered.a.ready = true ∧ edgeOffered.a.busy = false ∧ edgeOffered.a.waitAdc = false
      ∧ edgeOffered.a.mode = .oscilloscope ∧ edgeOffered.mem.raw.length = edgeOffered.cfg.rawbufLen
      ∧ edgeOffered.adcOffered = stepUp ∧ 1 + 1 + edgeOffered.cfg.oscSamples ≤ stepUp.length
      ∧ stepUp.all (fun x => decide (x.toNat < 2 ^ edgeOffered.cfg.adcBits)) = true)
    ∧ firstTrigger stepUp 1 :=
  ⟨by decide +kernel, by decide, by decide, fun _ h1 h2 => absurd h2 (not_lt.mpr h1)⟩

/-- Samples whose fourth is the trigger sample: neither 30 after 0 nor 31 after 30 is (R301). -/
def climb : List Half := [0, 30, 31, 400, 7, 8]

/-- The first clause with a trigger that is not the first sample it can be. -/
theorem witness_EdgeCapturesAfterTheFirstTrigger_later :
    ({ edgeOffered with adcOffered := climb } : State).adcOffered = climb
    ∧ 3 + 1 + edgeOffered.cfg.oscSamples ≤ climb.length
    ∧ climb.all (fun x => decide (x.toNat < 2 ^ edgeOffered.cfg.adcBits)) = true
    ∧ firstTrigger climb 3 :=
  ⟨rfl, by decide, by decide, by decide, by decide, fun j h1 h2 => by interval_cases j <;> decide⟩

/-- `m` zeros, a trigger sample, and the two samples P4F captures. -/
def quiet (m : Nat) : List Half := List.replicate m 0 ++ [31, 7, 8]

/-- What the first clause asks of a stream, by `quiet m` for every `m`: its first trigger sample is number `m`. -/
theorem quiet_meets (m : Nat) (hm : 1 ≤ m) :
    firstTrigger (quiet m) m ∧ m + 1 + edgeOffered.cfg.oscSamples ≤ (quiet m).length
    ∧ ∀ x ∈ quiet m, x.toNat < 2 ^ edgeOffered.cfg.adcBits := by
  have h0 : ∀ j, j < m → ((quiet m).getD j 0).toNat = 0 := fun j hj => by
    simp [quiet, List.getElem?_append_left, hj]
  have h1 : ((quiet m).getD m 0).toNat = 31 := by simp [quiet]
  refine ⟨⟨hm, ?_, fun j _ hj => ?_⟩, ?_, fun x hx => ?_⟩
  · rw [h0 _ (by omega), h1]; decide
  · rw [h0 j hj]; exact Nat.zero_le _
  · rw [show edgeOffered.cfg.oscSamples = 2 from rfl, quiet, List.length_append, List.length_replicate]; exact Nat.le_refl (m + 3)
  · have : x.toNat ≤ 31 := by
      simp only [quiet, List.mem_append, List.mem_replicate, List.mem_cons, List.not_mem_nil, or_false] at hx
      rcases hx with ⟨_, rfl⟩ | rfl | rfl | rfl <;> decide
    exact Nat.lt_of_le_of_lt this (by decide)

/-- The first clause where TRIG_POS saturates: `2^32` samples before the trigger sample. -/
theorem witness_EdgeCapturesAfterTheFirstTrigger_saturated :
    firstTrigger (quiet (2 ^ 32)) (2 ^ 32) ∧ 2 ^ 32 + 1 + edgeOffered.cfg.oscSamples ≤ (quiet (2 ^ 32)).length
    ∧ ∀ x ∈ quiet (2 ^ 32), x.toNat < 2 ^ edgeOffered.cfg.adcBits :=
  quiet_meets (2 ^ 32) Nat.one_le_two_pow
/-- P4F in OSCILLOSCOPE mode with nothing on offer; all samples come later. -/
def edgeLate : State := at0 p4f .oscilloscope

/-- The second clause: the engine idle again at the end of the moves, and still at work before the trigger. -/
theorem witness_EdgeCapturesAfterTheFirstTrigger_late :
    edgeLate.a.ready = true ∧ edgeLate.a.busy = false ∧ edgeLate.a.waitAdc = false
    ∧ edgeLate.a.mode = .oscilloscope ∧ edgeLate.mem.raw.length = edgeLate.cfg.rawbufLen
    ∧ (lateRounds (0 :: climb)).all isSampling = true
    ∧ (edgeLate.adcOffered ++ samplesOffered (lateRounds (0 :: climb))).all
        (fun x => decide (x.toNat < 2 ^ edgeLate.cfg.adcBits)) = true
    ∧ onNext (exec .aEdge edgeLate) (fun s1 =>
        onNext (Host.Core.run Sys2Proof.core (lateRounds (0 :: climb)).length
            { s1 with sched := lateRounds (0 :: climb) })
          (fun t => !t.a.busy && t.a.trigPos == 5 && t.adcOffered.isEmpty)
        && onNext (Host.Core.run Sys2Proof.core 12 { s1 with sched := (lateRounds (0 :: climb)).take 12 })
          (fun t => t.a.busy)) = true := by decide +kernel

theorem witness_PublishSendsTheFrameAndTheToken :
    ∀ m ∈ [Mode.spectrum, Mode.oscilloscope],
      (at0 p8 m).a.ready = true ∧ (at0 p8 m).a.busy = false ∧ (at0 p8 m).a.waitStaging = false
      ∧ (at0 p8 m).a.ackSync = (at0 p8 m).a.req ∧ (at0 p8 m).mem.wf (at0 p8 m).cfg = true := by decide

theorem witness_PopCopiesTheFrameIn :
    ∀ m ∈ [Mode.spectrum, Mode.oscilloscope],
      (pending p8 m).b.ready = true ∧ (pending p8 m).b.busy = false ∧ (pending p8 m).b.waitToken = false
      ∧ (pending p8 m).b.fresh = false ∧ (pending p8 m).b.reqSync ≠ (pending p8 m).b.ack
      ∧ (pending p8 m).mem.wf (pending p8 m).cfg = true := by decide

/-- A PUBLISH with the release on its way (phase (d)), and a POP with the token on its way (phase (b)). -/
theorem witness_WaitsHoldUntilTheSynchroniserSteps :
    (∃ s : State, s.a.ready = true ∧ s.a.busy = false ∧ s.a.waitStaging = false ∧ s.a.ackSync ≠ s.a.req
      ∧ s.b.ack = s.a.req)
    ∧ (∃ s : State, s.b.ready = true ∧ s.b.busy = false ∧ s.b.waitToken = false ∧ s.b.fresh = false
      ∧ s.b.reqSync = s.b.ack ∧ s.a.req ≠ s.b.ack) :=
  ⟨⟨withB (pending p8 .spectrum) fun b => { b with ack := true }, by decide⟩,
    ⟨withA (at0 p8 .spectrum) fun a => { a with req := true }, by decide⟩⟩

/-- The third clause in both modes: nothing on offer. -/
theorem witness_WaitsHoldUntilTheSynchroniserSteps_sample :
    [Mode.spectrum, Mode.oscilloscope].all (fun m =>
      (at0 p4f m).cfg.valid && (at0 p4f m).a.ready && !(at0 p4f m).a.busy && !(at0 p4f m).a.waitAdc
        && (at0 p4f m).adcOffered.isEmpty) = true := by decide

/-- A CAPTURE held for its third sample, the next move the ADC source's. -/
def heldForSample (offered : List Half) : State :=
  { withA (at0 p4f .spectrum) (fun a =>
      { a with busy := true, op := 0x01, phase := .capturing, adcEn := true, waitAdc := true, pos := .capture 2 }) with
    adcOffered := offered, sched := [.agent .adcSource] }

/-- The fourth clause: with nothing on offer the wait goes on, with a sample on offer the transfer ends it, and so
does reset. -/
theorem witness_WaitsHoldUntilTheSynchroniserSteps_held :
    [[], [5]].all (fun xs => (heldForSample xs).engineInv && (heldForSample xs).a.waitAdc) = true
    ∧ onNext (step (heldForSample [])) (fun t => t.a.waitAdc) = true
    ∧ onNext (step (heldForSample [5])) (fun t => !t.a.waitAdc && t.adcOffered.isEmpty) = true
    ∧ onNext (step { heldForSample [5] with sched := [.resetPin false] }) (fun t => !t.a.waitAdc && !t.rstN) = true := by
  decide +kernel

theorem witness_SwapTogglesTheActiveSlot :
    (at0 p8 .spectrum).b.ready = true ∧ (at0 p8 .spectrum).b.busy = false ∧ (at0 p8 .spectrum).b.fresh = false
    ∧ (withB (at0 p8 .spectrum) fun b => { b with fresh := true }).b.fresh = true
    ∧ (withB (at0 p8 .spectrum) fun b => { b with busy := true }).b.busy = true := by decide

/-- The least instance, FRAME_RATE 1, one sample on offer. -/
def oneSample : State := { at0 p2 .spectrum with adcOffered := [5] }

theorem witness_RunCycleEqualsTheHostSequence_spectrum :
    oneSample.cfg.valid = true ∧ oneSample.cfg.frameRate = 1 ∧ oneSample.engineInv = true
    ∧ oneSample.mem.wf oneSample.cfg = true ∧ oneSample.a.ready = true ∧ oneSample.a.busy = false
    ∧ oneSample.a.mode = .spectrum ∧ oneSample.a.ackSync = oneSample.a.req
    ∧ oneSample.cfg.rawSamples ≤ oneSample.adcOffered.length := by decide +kernel

/-- The least instance in OSCILLOSCOPE mode: the trigger is the second sample, the capture the third. -/
def oneEdge : State := { at0 p2 .oscilloscope with adcOffered := [0, 31, 7] }

theorem witness_RunCycleEqualsTheHostSequence_oscilloscope :
    (oneEdge.engineInv = true ∧ oneEdge.mem.wf oneEdge.cfg = true ∧ oneEdge.a.ready = true ∧ oneEdge.a.busy = false
      ∧ oneEdge.a.mode = .oscilloscope ∧ oneEdge.a.ackSync = oneEdge.a.req)
    ∧ exec .aEdge oneEdge = .next (oneEdge.acceptA 0x08 .capturing)
    ∧ (sampleRounds 3 (producerStep (oneEdge.acceptA 0x08 .capturing))).a.busy = true
    ∧ (producerStep (sampleRounds 3 (producerStep (oneEdge.acceptA 0x08 .capturing)))).a.busy = false :=
  ⟨by decide +kernel, rfl, by decide +kernel, by decide +kernel⟩

/-- Each select, at the last index of its buffer. -/
theorem witness_MemDataReadReturnsTheElement :
    [((0 : BitVec 4), (15 : BitVec 16)), (1, 7), (2, 7), (3, 7), (4, 3), (5, 7), (6, 3), (7, 3)].all (fun x =>
      let s := withA (at0 p8 .spectrum) fun a => { a with memSel := x.1, memIdx := x.2 }
      s.cfg.valid && s.mem.wf s.cfg && s.a.ready && !s.a.busy
        && decide (s.a.memIdx.toNat < windowLen s.cfg s.a.memSel)) = true := by decide +kernel

theorem witness_MemDataReadReturnsTheElement_oscilloscope :
    let s := withA (at0 p8 .oscilloscope) fun a => { a with memSel := 7, memIdx := 3 }
    s.cfg.valid = true ∧ s.mem.wf s.cfg = true ∧ s.a.ready = true ∧ s.a.busy = false
    ∧ s.a.memIdx.toNat < windowLen s.cfg s.a.memSel ∧ s.a.memSel = 7 ∧ s.a.mode = .oscilloscope := by decide +kernel

/-- Each writable select, at the last index of its buffer. -/
theorem witness_MemDataWriteStoresTheElement :
    [((0 : BitVec 4), (15 : BitVec 16)), (1, 7), (2, 7), (3, 7)].all (fun x =>
      let s := withA (at0 p8 .spectrum) fun a => { a with memSel := x.1, memIdx := x.2 }
      s.cfg.valid && s.mem.wf s.cfg && s.a.ready && !s.a.busy && decide (s.a.memSel.toNat ≤ 3)
        && decide (s.a.memIdx.toNat < windowLen s.cfg s.a.memSel)) = true := by decide +kernel

/-- The three clauses, at the boundary of each. -/
theorem witness_WindowChecksInTheirOrder :
    (at0 p8 .spectrum).a.ready = true
    ∧ (withA (at0 p8 .spectrum) fun a => { a with busy := true }).a.busy = true
    ∧ (let s := withA (at0 p8 .spectrum) fun a => { a with memSel := 4, memIdx := 4 }
       s.a.busy = false ∧ windowLen s.cfg s.a.memSel ≤ s.a.memIdx.toNat)
    ∧ (let s := withA (at0 p8 .spectrum) fun a => { a with memSel := 9 }
       s.a.busy = false ∧ windowLen s.cfg s.a.memSel ≤ s.a.memIdx.toNat)
    ∧ (let s := withA (at0 p8 .spectrum) fun a => { a with memSel := 4, memIdx := 3 }
       s.a.busy = false ∧ s.a.memIdx.toNat < windowLen s.cfg s.a.memSel ∧ 4 ≤ s.a.memSel.toNat) := by decide

theorem witness_SelectWritesTakeTheLowBits :
    (at0 p8 .spectrum).a.ready = true ∧ (at0 p8 .spectrum).b.ready = true := by decide

theorem witness_ErrorWritesClearTheRecord :
    (withA (at0 p8 .spectrum) fun a => { a with err := ⟨2, true, 7⟩ }).a.ready = true
    ∧ (withB (at0 p8 .spectrum) fun b => { b with err := ⟨8, true, 0⟩ }).b.ready = true := by decide

/-- Ready in both modes, and a state in each branch: HAZARD, RANGE at the first index beyond, the last element. -/
theorem witness_RdDataReadReturnsTheSlotElement :
    (at0 p8 .spectrum).b.ready = true ∧ (at0 p8 .spectrum).b.mode = .spectrum
    ∧ (at0 p8 .oscilloscope).b.mode = .oscilloscope
    ∧ (withB (at0 p8 .spectrum) fun b => { b with busy := true, rdSel := 1 }).b.busy = true
    ∧ (at0 p8 .spectrum).cfg.slotCap ≤ (withB (at0 p8 .spectrum) fun b => { b with rdIdx := 4 }).b.rdIdx.toNat
    ∧ (withB (at0 p8 .spectrum) fun b => { b with rdIdx := 3 }).b.rdIdx.toNat < (at0 p8 .spectrum).cfg.slotCap := by
  decide

/-- Offsets at the ends of the address space and of the unmapped ranges. -/
theorem witness_RegisterReadsAnswerTheirRegister :
    (at0 p8 .spectrum).a.ready = true ∧ (at0 p8 .spectrum).b.ready = true
    ∧ [(0x000 : BitVec 10), 0x007, 0x008, 0x009, 0x00A, 0x00B, 0x00C, 0x00D, 0x00E, 0x00F, 0x012, 0x013, 0x014,
        0x015, 0x017, 0x3FF].all (fun off => (Instr.aReadOther off).wellFormed) = true
    ∧ [(0x000 : BitVec 10), 0x001, 0x002, 0x007, 0x008, 0x009, 0x00A, 0x00B, 0x00C, 0x00D, 0x013, 0x014, 0x015,
        0x017, 0x3FF].all (fun off => (Instr.bReadOther off).wellFormed) = true := by decide

theorem witness_ConfigurationWordsHoldTheParameters :
    (at0 p8 .spectrum).cfg.valid = true ∧ (at0 p8 .spectrum).a.ready = true ∧ (at0 p8 .spectrum).b.ready = true
    ∧ (5 : Nat) < 6 := by decide

theorem witness_PortsInResetReadZeroAndIgnoreWrites :
    portOf .aRun = .a ∧ portOf .aReadMemData = .a ∧ portOf (.bWriteCmdB 2) = .b ∧ portOf .bReadRdData = .b
    ∧ (withA (at0 p8 .spectrum) fun a => { a with ready := false }).a.ready = false
    ∧ (withB (at0 p8 .spectrum) fun b => { b with ready := false }).b.ready = false := by decide

/-- Both cases of what a raise records, at the ends of the table of R441. -/
theorem witness_TheFirstErrorIsKept_record :
    (⟨0, true, 9⟩ : ErrorRecord).code = 0 ∧ (⟨1, false, 9⟩ : ErrorRecord).code ≠ 0
    ∧ (ErrorCode.illegal, (1 : BitVec 4)) ∈ [(ErrorCode.illegal, (1 : BitVec 4)), (.hazard, 8)]
    ∧ (ErrorCode.hazard, (8 : BitVec 4)) ∈ [(ErrorCode.illegal, (1 : BitVec 4)), (.hazard, 8)] := by decide

theorem witness_TheFirstErrorIsKept :
    ∃ (i : Instr) (s t : State), exec i s = .next t ∧ (∀ v, i ≠ .aWriteErrA v) ∧ (∀ v, i ≠ .bWriteErrB v)
      ∧ s.a.err.code ≠ 0 ∧ s.b.err.code ≠ 0 :=
  ⟨.aWriteCmdA 0x0B, withB (withA (at0 p8 .spectrum) fun a => { a with err := ⟨1, true, 0⟩ }) fun b =>
      { b with err := ⟨7, false, 1⟩ }, _, rfl, by simp, by simp, by decide, by decide⟩

/-- The hypotheses of `EachPortReachesOnlyItsDomain` and `TransactionsWriteBuffersOnlyThroughMemData`. -/
theorem witness_exec_next :
    (∃ t, exec (.aWriteMemData 5) (at0 p8 .spectrum) = .next t) ∧ portOf (.aWriteMemData 5) = .a
    ∧ (∃ t, exec .bReadRdData (at0 p8 .spectrum) = .next t) ∧ portOf .bReadRdData = .b
    ∧ (∀ v, Instr.bReadRdData ≠ .aWriteMemData v) ∧ writableSpace 0 = some .raw :=
  ⟨⟨_, rfl⟩, rfl, ⟨_, rfl⟩, rfl, by simp, rfl⟩

/-- The hypotheses of `EveryStepKeepsTheBufferForm`, `EveryStepKeepsTheEnginesAndTheHandshake` and
`EveryStepKeepsRecordsDividerAndTails`, all met by a state with a frame pending, from which a step is taken. -/
theorem witness_EveryStepKeeps :
    (pending p8 .oscilloscope).mem.wf p8 = true ∧ (pending p8 .oscilloscope).engineInv = true
    ∧ (pending p8 .oscilloscope).a.errorOk = true ∧ (pending p8 .oscilloscope).b.errorOk = true
    ∧ (pending p8 .oscilloscope).frameCntOk = true ∧ (pending p8 .oscilloscope).tailsZero = true
    ∧ onNext (step (pending p8 .oscilloscope)) (fun _ => true) = true := by decide

/-- One step of each kind of `EveryStepKeepsTheEnginesAndTheHandshake`: each of the four steps of R371, in its
phase, and reset. -/
theorem witness_EveryStepKeepsTheEnginesAndTheHandshake_phases :
    ([({ withA (at0 p2 .oscilloscope) (fun a =>
          { a with busy := true, op := 0x09, phase := .publishing, pos := .publishToggle }) with
          sched := [.agent .producerEngine] }, HandshakePhase.idle, HandshakePhase.tokenInFlight),
      ({ withA (at0 p2 .spectrum) (fun a => { a with req := true, pubCnt := 1 }) with
          sched := [.agent .reqSynchroniser] }, .tokenInFlight, .tokenPending),
      ({ withB (pending p2 .spectrum) (fun b => { b with busy := true, op := 0x01, pos := .popRelease }) with
          sched := [.agent .consumerEngine] }, .tokenPending, .releaseInFlight),
      ({ withB (pending p2 .spectrum) (fun b => { b with ack := true, popCnt := 1 }) with
          sched := [.agent .ackSynchroniser] }, .releaseInFlight, .idle),
      ({ pending p2 .spectrum with sched := [.resetPin false] }, .tokenPending, .idle)] :
        List (State × HandshakePhase × HandshakePhase)).all (fun x =>
      x.1.engineInv && decide (x.1.handshake = some x.2.1)
        && onNext (step x.1) (fun t => decide (t.handshake = some x.2.2))) = true := by decide +kernel

theorem witness_TheInvariantsHoldAfterReset : p8.valid = true ∧ p2.valid = true := by decide

/-- A domain leaving reset with the strap at 1. -/
theorem witness_ParametersAndModeAreFixedBetweenResets :
    onNext (step { withA (at0 p8 .spectrum) (fun a => { a with ready := false }) with
        modeStrap := true, sched := [.agent .resetSynchroniserA] })
      (fun t => decide (t.a.mode = .oscilloscope)) = true := by decide

/-- PUBLISH about to copy, its domain in agreement. -/
def copying (p : Params) : State :=
  { withA (at0 p .oscilloscope) (fun a =>
      { a with busy := true, op := 0x09, phase := .publishing, pos := .publishCopy }) with
    mem := { zeros p with raw := List.replicate p.rawbufLen 9 } }

theorem witness_StagingIsStableWhileTheConsumerMayRead :
    (copying p8).engineInv = true
    ∧ onNext (step (copying p8)) (fun t => decide (t.mem.staging ≠ (copying p8).mem.staging)) = true := by decide

/-- POP about to copy a pending frame. -/
def popping (p : Params) : State :=
  { withB (pending p .oscilloscope) (fun b => { b with busy := true, op := 0x01, pos := .popCopy }) with
    mem := { zeros p with staging := List.replicate p.slotCap 9 }
    turn := .consumerEngine }

theorem witness_SlotsChangeOnlyByCopyIn :
    (popping p8).engineInv = true ∧ (popping p8).b.pos = .popCopy
    ∧ onNext (step (popping p8)) (fun t => decide (t.mem.slot true ≠ (popping p8).mem.slot true)) = true := by decide

/-- A SWAP, and reset, change ACTIVE. -/
theorem witness_ActiveChangesOnlyBySwap :
    onNext (step { withB (at0 p8 .spectrum) (fun b => { b with fresh := true }) with
        sched := [.request ⟨.b, true, 0x020, 4, 2⟩] }) (fun t => t.b.active) = true
    ∧ onNext (step { withB (at0 p8 .spectrum) (fun b => { b with active := true }) with
        sched := [.resetPin false] }) (fun t => !t.b.active) = true := by decide

/-- PUBLISH about to send its token, and the moves up to the release: token, synchroniser, POP, its test, its
copy. -/
def sending : State :=
  { withA (at0 p2 .oscilloscope) (fun a =>
      { a with busy := true, op := 0x09, phase := .publishing, pos := .publishToggle }) with
    mem := { zeros p2 with staging := [9] }
    sched := [.agent .producerEngine, .agent .reqSynchroniser, .request ⟨.b, true, 0x020, 4, 1⟩,
      .agent .consumerEngine, .agent .consumerEngine] }

theorem witness_PopCopiesExactlyThePublishedFrame :
    sending.engineInv = true ∧ sending.mem.wf sending.cfg = true ∧ sending.a.mode = sending.b.mode
    ∧ sending.a.pos = .publishToggle
    ∧ onNext (Host.Core.run Sys2Proof.core 5 sending) (fun t => decide (t.b.pos = .popRelease)) = true
    ∧ ∀ m ∈ [1, 2, 3, 4, 5], onNext (Host.Core.run Sys2Proof.core m sending)
        (fun u => u.a.ready && u.b.ready && u.frameOutstanding) = true := by decide

theorem witness_RunEndsOnlyAtReset :
    let s := withA (at0 p8 .spectrum) fun a =>
      { a with busy := true, running := true, op := 0x0A, pos := .starting .capturing }
    s.engineInv = true ∧ s.a.running = true ∧ onNext (step s) (fun _ => true) = true := by decide

/-- Both engines waiting with the token on its way. -/
theorem witness_NoStateHasBothEnginesWaitingForEachOther_token :
    let s := withB (withA (at0 p8 .spectrum) fun a =>
        { a with busy := true, op := 0x09, phase := .publishing, pos := .publish, waitStaging := true, req := true,
                 pubCnt := 1 }) fun b => { b with busy := true, op := 0x01, pos := .pop, waitToken := true }
    s.engineInv = true ∧ s.a.ready = true ∧ s.b.ready = true ∧ s.a.waitStaging = true ∧ s.b.waitToken = true
    ∧ s.handshake = some .tokenInFlight := by decide

/-- Both engines waiting with the release on its way. -/
theorem witness_NoStateHasBothEnginesWaitingForEachOther_release :
    let s := withB (withA (at0 p8 .spectrum) fun a =>
        { a with busy := true, op := 0x09, phase := .publishing, pos := .publish, waitStaging := true, req := true,
                 pubCnt := 1 }) fun b =>
        { b with busy := true, op := 0x01, pos := .pop, waitToken := true, reqSync := true, ack := true, popCnt := 1 }
    s.engineInv = true ∧ s.a.ready = true ∧ s.b.ready = true ∧ s.a.waitStaging = true ∧ s.b.waitToken = true
    ∧ s.handshake = some .releaseInFlight := by decide

theorem witness_TokenCrossesWithinOneRound :
    let s := withA (at0 p8 .spectrum) fun a => { a with req := true, pubCnt := 1 }
    s.engineInv = true ∧ s.a.ready = true ∧ s.b.ready = true ∧ s.sched = []
    ∧ s.handshake = some .tokenInFlight := by decide

theorem witness_ResetFromAnyStateGivesTheResetValues :
    ({ popping p8 with sched := [.resetPin false, .resetPin true, .agent .resetSynchroniserA,
        .agent .resetSynchroniserB] } : State).sched
      = .resetPin false :: .resetPin true :: .agent .resetSynchroniserA :: .agent .resetSynchroniserB :: [] := rfl

theorem witness_OnlyValidParameterSetsAreBuilt :
    (∃ s, build ⟨p8, 2048, 8, 8, 3, 10⟩ false = .ok s)
    ∧ ∀ s, build ⟨p8, 2048, 8, 4, 3, 10⟩ false ≠ .ok s :=
  ⟨⟨_, rfl⟩, fun s h => by
    have h' : build ⟨p8, 2048, 8, 4, 3, 10⟩ false = .error .fatalConfiguration := rfl
    rw [h'] at h
    cases h⟩

theorem witness_DbfunIsTheRuleOverTheReals :
    ∀ m ∈ [(-32768 : Int), 0, 1, 32767], ∃ (x : Int) (r : Real), p8.valid = true ∧ -32768 ≤ m ∧ m ≤ 32767
      ∧ r = 20 * Real.logb 10 (Real.sqrt (2 * (max m 0 : Int) / 8192) + (1 / 10) ^ p8.dbEpsExp)
      ∧ (0 ≤ r → x = ⌊r⌋) ∧ (r < 0 → x = ⌈r⌉) := by
  intro m hm
  have h : -32768 ≤ m ∧ m ≤ 32767 := by simp at hm; omega
  rcases lt_or_ge (20 * Real.logb 10 (Real.sqrt (2 * (max m 0 : Int) / 8192) + (1 / 10) ^ p8.dbEpsExp)) 0 with hr | hr
  · exact ⟨_, _, by decide, h.1, h.2, rfl, fun h0 => absurd hr (not_lt.mpr h0), fun _ => rfl⟩
  · exact ⟨_, _, by decide, h.1, h.2, rfl, fun _ => rfl, fun h0 => absurd h0 (not_lt.mpr hr)⟩

/-- The ends of the table. -/
theorem witness_DbfunIsTheTableForTheDefaults :
    p8.dbMin = -100 ∧ p8.dbMax = 0 ∧ (p8.dbEpsExp = 5 ∨ p8.dbEpsExp = 6)
    ∧ ((-32768 : Int), (0 : Int), (-100 : Int)) ∈ [((-32768 : Int), (0 : Int), (-100 : Int)), (3254, 32767, 0)]
    ∧ (3254 : Int) ≤ 32767 := by decide

theorem witness_DbfunIsMonotone : p8.valid = true ∧ (-32768 : Int) ≤ 3253 ∧ (3253 : Int) ≤ 3254 := by decide

theorem witness_HannIsTheRoundedRaisedCosine :
    1 ≤ p2.log2Fft ∧ p2.log2Fft ≤ 9 ∧ 1 < p2.fftSize ∧ 511 < ({ p8 with log2Fft := 9 } : Params).fftSize := by decide

theorem witness_TwidIsTheRoundedTwiddleFactor :
    1 ≤ p2.log2Fft ∧ p2.log2Fft ≤ 9 ∧ 0 < p2.bins ∧ 255 < ({ p8 with log2Fft := 9 } : Params).bins := by decide

/-- The ends of the range of sizes, and the last index of each table. -/
theorem witness_LargerTablesAreTheRoundedReals :
    [((10 : Nat), (1024 : Nat)), (15, 32768)].all (fun x =>
      let p : Params := { p8 with log2Fft := x.1 }
      decide (10 ≤ p.log2Fft) && decide (p.log2Fft ≤ 15) && decide (x.2 - 1 < p.fftSize)
        && decide (x.2 / 2 - 1 < p.bins)) = true := by decide +kernel

theorem witness_BitReversalReversesTheBits : 6 < 2 ^ 3 ∧ bitrev 3 6 = 3 ∧ (0 : Nat) < 2 ^ 0 := by decide

theorem witness_FilterAndWindowBounds :
    (32768 : Nat) ≤ 32768 ∧ (-32768 : Int) ≤ -32768 ∧ (32767 : Int) ≤ 32767
    ∧ ({ p8 with alphaQ15 := 32768 } : Params).alphaQ15 = 32768
    ∧ ({ p8 with alphaQ15 := 0 } : Params).alphaQ15 = 0 := by decide

end Sys2Proof.Tests
end

section
/-! PROOFS. What a step does to the settings: the parameters (R12) and the MODE latched in each
domain (R14, R49). -/

namespace Sys2Proof.Machine

/-- The settings no command and no transaction touches: the parameters, MODE of domain A, MODE of domain B. -/
def State.settings (s : State) : Params × Mode × Mode := (s.cfg, s.a.mode, s.b.mode)

theorem State.settings_eq_iff {s t : State} :
    t.settings = s.settings ↔ t.cfg = s.cfg ∧ t.a.mode = s.a.mode ∧ t.b.mode = s.b.mode := by
  simp [State.settings]

/-! ## The shared operations keep the settings -/

@[simp] theorem State.raise_settings (s : State) (p : Port) (code : ErrorCode) (opc : BitVec 8) :
    (s.raise p code opc).settings = s.settings := by cases p <;> rfl

@[simp] theorem State.clearError_settings (s : State) (p : Port) :
    (s.clearError p).settings = s.settings := by cases p <;> rfl

@[simp] theorem State.answerA_settings (s : State) (r : Word) : (s.answerA r).settings = s.settings := rfl

@[simp] theorem State.answerB_settings (s : State) (r : Word) : (s.answerB r).settings = s.settings := rfl

@[simp] theorem State.drawDiag_settings (s : State) (r : Word) : (s.drawDiag r).2.settings = s.settings := rfl

@[simp] theorem State.beginPhase_settings (s : State) (ph : Phase) :
    (s.beginPhase ph).settings = s.settings := rfl

@[simp] theorem State.endPhase_settings (s : State) (ph : Phase) : (s.endPhase ph).settings = s.settings := rfl

@[simp] theorem State.setPos_settings (s : State) (pos : ProducerPos) :
    (s.setPos pos).settings = s.settings := rfl

@[simp] theorem State.completeA_settings (s : State) : s.completeA.settings = s.settings := rfl

@[simp] theorem State.acceptA_settings (s : State) (op : BitVec 8) (ph : Phase) :
    (s.acceptA op ph).settings = s.settings := rfl

@[simp] theorem State.acceptRun_settings (s : State) : s.acceptRun.settings = s.settings := rfl

@[simp] theorem State.holdAdc_settings (s : State) : s.holdAdc.settings = s.settings := rfl

@[simp] theorem State.advanceMemIdx_settings (s : State) : s.advanceMemIdx.settings = s.settings := rfl

@[simp] theorem State.advanceRdIdx_settings (s : State) : s.advanceRdIdx.settings = s.settings := rfl

@[simp] theorem State.setPosB_settings (s : State) (pos : ConsumerPos) :
    (s.setPosB pos).settings = s.settings := rfl

@[simp] theorem State.acceptPop_settings (s : State) : s.acceptPop.settings = s.settings := rfl

@[simp] theorem State.swapBody_settings (s : State) : s.swapBody.settings = s.settings := rfl

@[simp] theorem State.popEnd_settings (s : State) : s.popEnd.settings = s.settings := rfl

@[simp] theorem State.popCopy_settings (s : State) : s.popCopy.settings = s.settings := rfl

@[simp] theorem State.publishCopy_settings (s : State) : s.publishCopy.settings = s.settings := rfl

@[simp] theorem State.storeRaw_settings (s : State) (i : Nat) (v : Half) :
    (s.storeRaw i v).settings = s.settings := rfl

@[simp] theorem State.filterBody_settings (s : State) : s.filterBody.settings = s.settings := rfl

@[simp] theorem State.windowBody_settings (s : State) : s.windowBody.settings = s.settings := rfl

@[simp] theorem State.fftBody_settings (s : State) : s.fftBody.settings = s.settings := rfl

@[simp] theorem State.powerBody_settings (s : State) : s.powerBody.settings = s.settings := rfl

@[simp] theorem State.dbconvBody_settings (s : State) : s.dbconvBody.settings = s.settings := rfl

@[simp] theorem State.spectrumBody_settings (s : State) : s.spectrumBody.settings = s.settings := rfl

@[simp] theorem State.divide_settings (s : State) : s.divide.settings = s.settings := rfl

/-- The end of a phase goes on inside RUN or completes the command; neither touches the settings. -/
@[simp] theorem State.finishA_settings (s : State) (next : ProducerPos) :
    (s.finishA next).settings = s.settings := by
  by_cases h : s.a.op = opRun
  · rw [State.finishA_run h, State.setPos_settings]
  · rw [State.finishA_command h, State.completeA_settings]

@[simp] theorem State.publishTest_settings (s : State) : s.publishTest.settings = s.settings := by
  unfold State.publishTest
  split <;> rfl

@[simp] theorem State.popTest_settings (s : State) : s.popTest.settings = s.settings := by
  unfold State.popTest
  split <;> rfl

@[simp] theorem State.publishEnd_settings (s : State) : s.publishEnd.settings = s.settings := by
  rw [State.publishEnd, State.finishA_settings, State.endPhase_settings]
  rfl

@[simp] theorem State.edgeEnd_settings (s : State) (cnt : Word) : (s.edgeEnd cnt).settings = s.settings := by
  rw [State.edgeEnd, State.finishA_settings, State.endPhase_settings]
  rfl

@[simp] theorem State.captureEnd_settings (s : State) : s.captureEnd.settings = s.settings := by
  unfold State.captureEnd
  simp only
  split <;> rfl

@[simp] theorem State.startPhase_settings (s : State) (ph : Phase) :
    (s.startPhase ph).settings = s.settings := by cases ph <;> rfl

@[simp] theorem State.processBody_settings (s : State) : s.processBody.settings = s.settings := by
  unfold State.processBody
  split <;> simp

@[simp] theorem State.processEnd_settings (s : State) : s.processEnd.settings = s.settings := by
  simp [State.processEnd]

@[simp] theorem State.takeSample_settings (s : State) (v : Half) : (s.takeSample v).settings = s.settings := by
  unfold State.takeSample
  split <;> rfl

/-! ## The instructions keep the settings -/

/-- A port A command written, whatever R446 answers, keeps the settings if its acceptance does. -/
theorem State.issueA_settings {s accepted : State} (h : accepted.settings = s.settings) (op : BitVec 8)
    (legal : Mode → Bool) : (s.issueA op legal accepted).settings = s.settings := by
  rcases s.issueA_cases op legal accepted with
    ⟨-, hs⟩ | ⟨-, -, hs⟩ | ⟨-, -, -, hs⟩ | ⟨-, -, -, hs⟩ <;> simp [hs, h]

/-- A port B command written, likewise. -/
theorem State.issueB_settings {s accepted : State} (h : accepted.settings = s.settings) (op : BitVec 8)
    (freshNeeded : Bool) : (s.issueB op freshNeeded accepted).settings = s.settings := by
  rcases s.issueB_cases op freshNeeded accepted with
    ⟨-, hs⟩ | ⟨-, -, hs⟩ | ⟨-, -, -, hs⟩ | ⟨-, -, -, hs⟩ <;> simp [hs, h]

@[simp] theorem State.issueIllegal_settings (s : State) (p : Port) (w : Word) :
    (s.issueIllegal p w).settings = s.settings := by
  cases p <;> simp only [State.issueIllegal] <;> split <;> simp

@[simp] theorem State.readMemData_settings (s : State) : s.readMemData.settings = s.settings := by
  rcases s.readMemData_cases with ⟨-, hs⟩ | ⟨-, c, -, hs⟩ | ⟨-, -, hs⟩ <;> simp [hs]

@[simp] theorem State.writeMemData_settings (s : State) (v : Word) :
    (s.writeMemData v).settings = s.settings := by
  rcases s.writeMemData_cases v with ⟨-, hs⟩ | ⟨-, c, -, hs⟩ | ⟨-, -, hs⟩ <;> rw [hs]
  · exact State.raise_settings ..
  · rfl

@[simp] theorem State.readRdData_settings (s : State) : s.readRdData.settings = s.settings := by
  rcases s.readRdData_cases with ⟨-, hs⟩ | ⟨-, c, -, hs⟩ | ⟨-, -, hs⟩ <;> simp [hs]

@[simp] theorem State.readRegisterA_settings (s : State) (off : BitVec 10) :
    (s.readRegisterA off).settings = s.settings := by
  unfold State.readRegisterA
  split_ifs
  · exact State.answerA_settings ..
  · exact State.readMemData_settings s
  · split <;> simp

@[simp] theorem State.readRegisterB_settings (s : State) (off : BitVec 10) :
    (s.readRegisterB off).settings = s.settings := by
  unfold State.readRegisterB
  split_ifs
  · exact State.answerB_settings ..
  · exact State.readRdData_settings s
  · split <;> simp

/-- From the state an outcome holds to the state it answers. -/
theorem settings_of_next {s t u : State} (h : (.next u : Host.Outcome State Fault Refusal) = .next t)
    (hu : u.settings = s.settings) : t.settings = s.settings := by
  cases h
  exact hu

/-- A write of CMD_A: NOP_A, RUN, an illegal word, or a command accepted into a phase. -/
theorem execWriteCmdA_settings {w : Word} {s t : State} (h : execWriteCmdA w s = .next t) :
    t.settings = s.settings := by
  unfold execWriteCmdA at h
  split at h
  case h_1 => exact settings_of_next h rfl
  case h_11 => exact settings_of_next h (State.issueA_settings s.acceptRun_settings _ _)
  case h_12 => exact settings_of_next h (s.issueIllegal_settings .a w)
  all_goals exact settings_of_next h (State.issueA_settings (State.acceptA_settings ..) _ _)

/-- A write of CMD_B: NOP_B, POP, SWAP, or an illegal word. -/
theorem execWriteCmdB_settings {w : Word} {s t : State} (h : execWriteCmdB w s = .next t) :
    t.settings = s.settings := by
  unfold execWriteCmdB at h
  split at h
  case h_1 => exact settings_of_next h rfl
  case h_2 => exact settings_of_next h (State.issueB_settings s.acceptPop_settings _ _)
  case h_3 => exact settings_of_next h (State.issueB_settings s.swapBody_settings _ _)
  case h_4 => exact settings_of_next h (s.issueIllegal_settings .b w)

/-- No instruction changes a parameter or a MODE. -/
theorem exec_settings {i : Instr} {s t : State} (h : exec i s = .next t) : t.settings = s.settings := by
  cases i with
  | aNopA | bNopB | aWriteOther _ _ | bWriteOther _ _ => exact settings_of_next h rfl
  | aCapture | aFilter | aWindow | aFft | aPower | aDbconv | aSpectrum | aEdge | aPublish =>
    exact settings_of_next h (State.issueA_settings (State.acceptA_settings ..) _ _)
  | aRun => exact settings_of_next h (State.issueA_settings s.acceptRun_settings _ _)
  | bPop => exact settings_of_next h (State.issueB_settings s.acceptPop_settings _ _)
  | bSwap => exact settings_of_next h (State.issueB_settings s.swapBody_settings _ _)
  | aReadMemData => exact settings_of_next h s.readMemData_settings
  | aWriteMemData v => exact settings_of_next h (s.writeMemData_settings v)
  | aWriteCmdA w => exact execWriteCmdA_settings h
  | bWriteCmdB w => exact execWriteCmdB_settings h
  | aWriteErrA v | bWriteErrB v => exact settings_of_next h (by split <;> simp)
  | aWriteMemSel v | aWriteMemIdx v | bWriteRdSel v | bWriteRdIdx v =>
    exact settings_of_next h (by split <;> rfl)
  | aReadOther off => exact settings_of_next h (s.readRegisterA_settings off)
  | bReadRdData => exact settings_of_next h s.readRdData_settings
  | bReadOther off => exact settings_of_next h (s.readRegisterB_settings off)

/-! ## The agents -/

/-- The producer engine keeps the settings, wherever it stands. -/
theorem producerStep_settings (s : State) : (producerStep s).settings = s.settings := by
  cases hpos : s.a.pos with
  | idle => rw [producerStep_idle hpos]
  | starting ph => rw [producerStep_starting hpos, State.startPhase_settings]
  | capture i | edgeFirst | edgeScan _ _ | edgeFill i _ | publish =>
    simp only [producerStep, hpos]
    split_ifs <;> simp
  | body => rw [producerStep_body hpos, State.processEnd_settings]
  | publishCopy => rw [producerStep_publishCopy hpos, State.publishCopy_settings]
  | publishToggle => rw [producerStep_publishToggle hpos, State.publishEnd_settings]

/-- The consumer engine, likewise. -/
theorem consumerStep_settings (s : State) : (consumerStep s).settings = s.settings := by
  cases hpos : s.b.pos with
  | idle => rw [consumerStep_idle hpos]
  | pop =>
    simp only [consumerStep, hpos]
    split_ifs <;> simp
  | popCopy => rw [consumerStep_popCopy hpos, State.popCopy_settings]
  | popRelease => rw [consumerStep_popRelease hpos, State.popEnd_settings]

theorem adcTransfer_settings (s : State) : (adcTransfer s).settings = s.settings := by
  unfold adcTransfer
  split
  · rfl
  · split_ifs
    · rw [State.takeSample_settings]; rfl
    · rfl

theorem reqSyncStep_settings (s : State) : (reqSyncStep s).settings = s.settings := by
  rcases reqSyncStep_cases s with ⟨-, hs⟩ | ⟨-, hs⟩ <;> rw [hs]; rfl

theorem ackSyncStep_settings (s : State) : (ackSyncStep s).settings = s.settings := by
  rcases ackSyncStep_cases s with ⟨-, hs⟩ | ⟨-, hs⟩ <;> rw [hs]; rfl

theorem clockStepA_settings (s : State) : (clockStepA s).settings = s.settings := by
  unfold clockStepA
  split <;> rfl

theorem clockStepB_settings (s : State) : (clockStepB s).settings = s.settings := by
  unfold clockStepB
  split <;> rfl

/-- Asserting `rst_n` keeps each domain's MODE until the domain leaves reset again (R49, R480). -/
theorem resetPin_settings (level : Bool) (s : State) : (resetPin level s).settings = s.settings := by
  cases level <;> rfl

/-- Between `s` and `t` domain A left reset, MODE being the strap's level, and nothing else of the settings
changed (R49, R481). -/
def leftResetA (s t : State) : Prop :=
  s.a.ready = false ∧ t.cfg = s.cfg ∧ t.a = DomainA.afterReset (modeOfStrap s.modeStrap) ∧ t.b = s.b

/-- The same of domain B. -/
def leftResetB (s t : State) : Prop :=
  s.b.ready = false ∧ t.cfg = s.cfg ∧ t.a = s.a ∧ t.b = DomainB.afterReset (modeOfStrap s.modeStrap)

/-- Domain A's reset synchroniser does nothing, or takes the domain out of reset. -/
theorem leaveResetA_cases (s : State) : leaveResetA s = s ∨ leftResetA s (leaveResetA s) := by
  unfold leaveResetA
  split
  · rename_i h
    obtain ⟨-, hready⟩ : s.rstN = true ∧ s.a.ready = false := by simpa using h
    exact .inr ⟨hready, rfl, rfl, rfl⟩
  · exact .inl rfl

/-- Domain B's reset synchroniser, likewise. -/
theorem leaveResetB_cases (s : State) : leaveResetB s = s ∨ leftResetB s (leaveResetB s) := by
  unfold leaveResetB
  split
  · rename_i h
    obtain ⟨-, hready⟩ : s.rstN = true ∧ s.b.ready = false := by simpa using h
    exact .inr ⟨hready, rfl, rfl, rfl⟩
  · exact .inl rfl

/-- An agent's step keeps the settings, unless it takes a domain out of reset. -/
theorem agentStep_settings_cases (g : Agent) (s : State) :
    (agentStep g s).settings = s.settings ∨ leftResetA s (agentStep g s) ∨ leftResetB s (agentStep g s) := by
  cases g with
  | producerEngine => exact .inl (producerStep_settings s)
  | consumerEngine => exact .inl (consumerStep_settings s)
  | adcSource => exact .inl (adcTransfer_settings s)
  | reqSynchroniser => exact .inl (reqSyncStep_settings s)
  | ackSynchroniser => exact .inl (ackSyncStep_settings s)
  | clockA => exact .inl (clockStepA_settings s)
  | clockB => exact .inl (clockStepB_settings s)
  | resetSynchroniserA => exact (leaveResetA_cases s).imp (congrArg State.settings) .inl
  | resetSynchroniserB => exact (leaveResetB_cases s).imp (congrArg State.settings) .inr

/-! ## One step -/

/-- A step keeps the settings, unless it takes a domain out of reset. -/
theorem step_settings_cases {s t : State} (h : step s = .next t) :
    t.settings = s.settings ∨ leftResetA s t ∨ leftResetB s t := by
  rcases step_cases h with ⟨-, rfl⟩ | ⟨r, es, i, -, -, hexec⟩ | ⟨g, es, -, rfl⟩ | ⟨v, es, -, rfl⟩
    | ⟨level, es, -, rfl⟩ | ⟨level, es, -, rfl⟩
  · exact agentStep_settings_cases s.turn { s with turn := nextTurn s.turn }
  · exact .inl (exec_settings (s := { s with sched := es }) hexec)
  · exact agentStep_settings_cases g { s with sched := es }
  · exact .inl rfl
  · exact .inl (resetPin_settings level { s with sched := es })
  · exact .inl rfl

/-- Settles O42, by what a step does to the settings: it keeps them, or one domain leaves reset. -/
theorem parametersAndModeAreFixedBetweenResets : Obligations.ParametersAndModeAreFixedBetweenResets := by
  intro s t h
  rcases step_settings_cases h with hkept | ⟨hready, hcfg, ha, hb⟩ | ⟨hready, hcfg, ha, hb⟩
  · obtain ⟨hcfg, hmodeA, hmodeB⟩ := State.settings_eq_iff.mp hkept
    exact ⟨hcfg, .inl hmodeA, .inl hmodeB⟩
  · exact ⟨hcfg, .inr ⟨hready, congrArg DomainA.ready ha, congrArg DomainA.mode ha⟩,
      .inl (congrArg DomainB.mode hb)⟩
  · exact ⟨hcfg, .inl (congrArg DomainA.mode ha),
      .inr ⟨hready, congrArg DomainB.ready hb, congrArg DomainB.mode hb⟩⟩

end Sys2Proof.Machine
end

section
/-! PROOFS. Building (R15, R461): which parameter tables have an initial state, and its CFG_ERR bit. -/

namespace Sys2Proof.Machine

/-- The ranges of R12, one by one. -/
theorem params_valid_iff (p : Params) :
    p.valid = true ↔
      1 ≤ p.adcBits ∧ p.adcBits ≤ 16 ∧ p.q15Shift ≤ 15 ∧ p.alphaQ15 ≤ 32768
      ∧ 1 ≤ p.rawSamples ∧ p.rawSamples ≤ 65535 ∧ 1 ≤ p.decimateN ∧ p.decimateN ≤ 65535
      ∧ 1 ≤ p.log2Fft ∧ p.log2Fft ≤ 15 ∧ 1 ≤ p.oscSamples ∧ p.oscSamples ≤ 65535
      ∧ 1 ≤ p.frameRate ∧ p.frameRate ≤ 65535 ∧ -32768 ≤ p.dbMin ∧ p.dbMin ≤ p.dbMax ∧ p.dbMax ≤ 32767
      ∧ 5 ≤ p.dbEpsExp ∧ p.dbEpsExp ≤ 6 ∧ 2 ≤ p.syncStages ∧ p.syncStages ≤ 255 := by
  simp only [Params.valid, decide_eq_true_eq]

/-- The ranges of R12 and the ties of its table (R15). -/
theorem paramSet_valid_iff (q : ParamSet) :
    q.valid = true ↔
      q.params.valid = true ∧ q.adcMid = 2 ^ (q.params.adcBits - 1) ∧ q.fftSize = 2 ^ q.params.log2Fft
      ∧ q.downsampled = q.fftSize ∧ q.trigOffset = 3 ∧ q.trigGain = 10 := by
  simp only [ParamSet.valid, Bool.and_eq_true, beq_iff_eq, Params.adcMid, Params.fftSize, trigOffset, trigGain,
    and_assoc]

theorem build_of_valid {q : ParamSet} (h : q.valid = true) (strap : Bool) :
    build q strap = .ok (State.initial q.params strap) := if_pos h

theorem build_of_invalid {q : ParamSet} (h : ¬ q.valid = true) (strap : Bool) :
    build q strap = .error .fatalConfiguration := if_neg h

/-- A parameter table builds exactly the initial state of its parameters, and only if it is valid. -/
theorem build_eq_ok_iff (q : ParamSet) (strap : Bool) (s : State) :
    build q strap = .ok s ↔ q.valid = true ∧ s = State.initial q.params strap := by
  by_cases h : q.valid = true
  · simp [build_of_valid h, h, eq_comm]
  · simp [build_of_invalid h, h]

/-- A status bit reads only at its own position. -/
theorem bitAt_getLsbD_of_ne (b : Bool) {j k : Nat} (h : j ≠ k) : (bitAt b k).getLsbD j = false := by
  by_cases hjk : j < k
  · simp [bitAt, hjk]
  · have h1 : 1 ≤ j - k := by omega
    simp [bitAt, BitVec.getLsbD_of_ge _ _ h1]

/-- A field reads 0 below its lowest bit. -/
theorem fieldAt_getLsbD_of_lt {w : Nat} (v : BitVec w) {j k : Nat} (h : j < k) :
    (fieldAt v k).getLsbD j = false := by
  simp [fieldAt, h]

/-- CFG_ERR, bit 7 of STATUS_A, reads 0 in every state of domain A (R15, R63). -/
theorem statusA_cfgErr (a : DomainA) : (statusA a).getLsbD 7 = false := by
  simp (disch := decide) only [statusA, BitVec.getLsbD_or, bitAt_getLsbD_of_ne, fieldAt_getLsbD_of_lt,
    Bool.or_self]

/-- Settles O52, by the ranges and ties that make a table valid and by what `build` answers on a valid table. -/
theorem onlyValidParameterSetsAreBuilt : Obligations.OnlyValidParameterSetsAreBuilt := by
  intro q strap
  refine ⟨?_, ?_, ?_⟩
  · have hbuilt : (∃ s, build q strap = .ok s) ↔ q.valid = true := by simp [build_eq_ok_iff]
    rw [hbuilt, paramSet_valid_iff, params_valid_iff]
    have heps : (q.params.dbEpsExp = 5 ∨ q.params.dbEpsExp = 6) ↔
        5 ≤ q.params.dbEpsExp ∧ q.params.dbEpsExp ≤ 6 := by omega
    rw [heps]
    -- the same conditions in another order
    constructor <;> intro h <;> simp only [h, and_self]
  · intro s hs
    exact ⟨((build_eq_ok_iff q strap s).mp hs).2, statusA_cfgErr s.a⟩
  · intro hnone
    exact build_of_invalid (fun hvalid => hnone _ (build_of_valid hvalid strap)) strap

end Sys2Proof.Machine
end

section
/-! PROOFS. Transactions and commands: what they do in reset (R43, R480), and everything an instruction of a port can
do in any state (`EffectA`, `EffectB`). -/

namespace Sys2Proof.Machine

/-! ## A port whose domain is in reset -/

theorem State.issueA_inReset {s : State} (h : s.a.ready = false) (op : BitVec 8) (legal : Mode → Bool)
    (accepted : State) : s.issueA op legal accepted = s := by simp [State.issueA, h]

theorem State.issueB_inReset {s : State} (h : s.b.ready = false) (op : BitVec 8) (freshNeeded : Bool)
    (accepted : State) : s.issueB op freshNeeded accepted = s := by simp [State.issueB, h]

theorem State.readMemData_inReset {s : State} (h : s.a.ready = false) : s.readMemData = s.answerA 0 := by
  simp [State.readMemData, h]

theorem State.writeMemData_inReset {s : State} (h : s.a.ready = false) (v : Word) : s.writeMemData v = s := by
  simp [State.writeMemData, h]

theorem State.readRdData_inReset {s : State} (h : s.b.ready = false) : s.readRdData = s.answerB 0 := by
  simp [State.readRdData, h]

theorem State.readRegisterA_inReset {s : State} (h : s.a.ready = false) (off : BitVec 10) :
    s.readRegisterA off = s.answerA 0 := by simp [State.readRegisterA, h]

theorem State.readRegisterB_inReset {s : State} (h : s.b.ready = false) (off : BitVec 10) :
    s.readRegisterB off = s.answerB 0 := by simp [State.readRegisterB, h]

theorem execWriteCmdA_inReset {s : State} (h : s.a.ready = false) (w : Word) : execWriteCmdA w s = .next s := by
  unfold execWriteCmdA
  split
  case h_1 => rfl
  case h_12 => simp [State.issueIllegal, h]
  all_goals exact congrArg _ (State.issueA_inReset h ..)

theorem execWriteCmdB_inReset {s : State} (h : s.b.ready = false) (w : Word) : execWriteCmdB w s = .next s := by
  unfold execWriteCmdB
  split
  case h_1 => rfl
  case h_4 => simp [State.issueIllegal, h]
  all_goals exact congrArg _ (State.issueB_inReset h ..)

/-- Port A in reset: a read answers 0 and everything else is ignored. -/
theorem exec_inResetA {i : Instr} {s : State} (hport : portOf i = .a) (h : s.a.ready = false) :
    exec i s = .next (if isRead i = true then s.answerA 0 else s) := by
  cases i with
  | aNopA | aWriteOther _ _ => rfl
  | aCapture | aFilter | aWindow | aFft | aPower | aDbconv | aSpectrum | aEdge | aPublish | aRun =>
    exact congrArg _ (State.issueA_inReset h ..)
  | aReadMemData => exact congrArg _ (State.readMemData_inReset h)
  | aReadOther off => exact congrArg _ (State.readRegisterA_inReset h off)
  | aWriteMemData v => exact congrArg _ (State.writeMemData_inReset h v)
  | aWriteCmdA w => exact execWriteCmdA_inReset h w
  | aWriteErrA _ => simp [exec, execWriteErrA, isRead, h]
  | aWriteMemSel _ => simp [exec, execWriteMemSel, isRead, h]
  | aWriteMemIdx _ => simp [exec, execWriteMemIdx, isRead, h]
  | _ => cases hport

/-- Port B in reset, likewise. -/
theorem exec_inResetB {i : Instr} {s : State} (hport : portOf i = .b) (h : s.b.ready = false) :
    exec i s = .next (if isRead i = true then s.answerB 0 else s) := by
  cases i with
  | bNopB | bWriteOther _ _ => rfl
  | bPop | bSwap => exact congrArg _ (State.issueB_inReset h ..)
  | bReadRdData => exact congrArg _ (State.readRdData_inReset h)
  | bReadOther off => exact congrArg _ (State.readRegisterB_inReset h off)
  | bWriteCmdB w => exact execWriteCmdB_inReset h w
  | bWriteErrB _ => simp [exec, execWriteErrB, isRead, h]
  | bWriteRdSel _ => simp [exec, execWriteRdSel, isRead, h]
  | bWriteRdIdx _ => simp [exec, execWriteRdIdx, isRead, h]
  | _ => cases hport

/-- Settles O34, port by port: each operation of a port tests READY first. -/
theorem portsInResetReadZeroAndIgnoreWrites : Obligations.PortsInResetReadZeroAndIgnoreWrites :=
  fun _ _ => ⟨exec_inResetA, exec_inResetB⟩

/-! ## Everything an instruction can do -/

/-- Domain A stands before a phase its command has (R163, R322): what `DomainA.engineOk` asks of `starting`. -/
def DomainA.mayStart (a : DomainA) : Phase → Bool
  | .capturing => a.inCapture || a.inEdge
  | .processing => a.inProcessing
  | .publishing => a.inPublish
  | .idle => false

/-- What an instruction of port A may do to `s`: it writes registers a host reaches (and may draw a free
value), stores one buffer element, or issues a command that is accepted. -/
inductive EffectA (s : State) : Instr → State → Prop
  | registers {i : Instr} (err : ErrorRecord) (sel : BitVec 4) (idx : BitVec 16) (rdata : Word) (draws : Nat) :
      EffectA s i
        { s with a := { s.a with err := err, memSel := sel, memIdx := idx, rdata := rdata }, draws := draws }
  | store (v : Word) :
      EffectA s (.aWriteMemData v)
        { s.advanceMemIdx with mem := windowStore s.cfg s.mem s.a.memSel s.a.memIdx.toNat v }
  | accept {i : Instr} (op : BitVec 8) (ph : Phase) (hidle : s.a.busy = false) (hop : op ≠ opRun)
      (hstart : (s.acceptA op ph).a.mayStart ph = true) : EffectA s i (s.acceptA op ph)
  | acceptRun {i : Instr} (hidle : s.a.busy = false) : EffectA s i s.acceptRun

/-- What an instruction of port B may do to `s`: it writes registers a host reaches, or issues a POP or a SWAP that is
accepted. -/
inductive EffectB (s : State) : Instr → State → Prop
  | registers {i : Instr} (err : ErrorRecord) (sel : BitVec 2) (idx : BitVec 16) (rdata : Word) (draws : Nat) :
      EffectB s i
        { s with b := { s.b with err := err, rdSel := sel, rdIdx := idx, rdata := rdata }, draws := draws }
  | pop {i : Instr} (hidle : s.b.busy = false) (hstale : s.b.fresh = false) : EffectB s i s.acceptPop
  | swap {i : Instr} (hi : i = .bSwap ∨ i = .bWriteCmdB 0x02) (hidle : s.b.busy = false)
      (hfresh : s.b.fresh = true) : EffectB s i s.swapBody

/-- A command of port A but RUN, whatever R446 answers, if the modes it is legal in are those of its phase. -/
theorem State.issueA_effect {s : State} {i : Instr} {op : BitVec 8} {ph : Phase} {legal : Mode → Bool}
    (hop : op ≠ opRun) (hstart : legal s.a.mode = true → (s.acceptA op ph).a.mayStart ph = true) :
    EffectA s i (s.issueA op legal (s.acceptA op ph)) := by
  rcases s.issueA_cases op legal (s.acceptA op ph) with
    ⟨-, hs⟩ | ⟨-, -, hs⟩ | ⟨-, -, -, hs⟩ | ⟨-, hidle, hlegal, hs⟩ <;> rw [hs]
  · exact .registers ..
  · exact .registers ..
  · exact .registers ..
  · exact .accept op ph hidle hop (hstart hlegal)

theorem execCapture_effect {s t : State} {i : Instr} (h : execCapture s = .next t) : EffectA s i t := by
  cases h
  exact State.issueA_effect (by decide) (by simp +contextual [onlySpectrum, DomainA.mayStart, DomainA.inCapture])

theorem execEdge_effect {s t : State} {i : Instr} (h : execEdge s = .next t) : EffectA s i t := by
  cases h
  exact State.issueA_effect (by decide)
    (by simp +contextual [onlyOscilloscope, DomainA.mayStart, DomainA.inEdge, opEdge])

theorem execPublish_effect {s t : State} {i : Instr} (h : execPublish s = .next t) : EffectA s i t := by
  cases h
  exact State.issueA_effect (by decide) (by simp [DomainA.mayStart, DomainA.inPublish])

/-- FILTER to SPECTRUM, the commands of a PROCESSING phase. -/
theorem issueProcessing_effect {s : State} {i : Instr} {op : BitVec 8} (hlo : 2 ≤ op.toNat) (hhi : op.toNat ≤ 7) :
    EffectA s i (s.issueA op onlySpectrum (s.acceptA op .processing)) := by
  refine State.issueA_effect ?_ (by simp +contextual [onlySpectrum, DomainA.mayStart, DomainA.inProcessing, hlo, hhi])
  rintro rfl
  exact absurd hhi (by decide)

theorem execRun_effect {s t : State} {i : Instr} (h : execRun s = .next t) : EffectA s i t := by
  cases h
  rcases s.issueA_cases opRun bothModes s.acceptRun with
    ⟨-, hs⟩ | ⟨-, -, hs⟩ | ⟨-, -, -, hs⟩ | ⟨-, hidle, -, hs⟩ <;> rw [hs]
  · exact .registers ..
  · exact .registers ..
  · exact .registers ..
  · exact .acceptRun hidle

theorem execWriteCmdA_effect {s t : State} {i : Instr} {w : Word} (h : execWriteCmdA w s = .next t) :
    EffectA s i t := by
  unfold execWriteCmdA at h
  split at h
  case h_1 => cases h; exact .registers ..
  case h_2 => exact execCapture_effect h
  case h_9 => exact execEdge_effect h
  case h_10 => exact execPublish_effect h
  case h_11 => exact execRun_effect h
  case h_12 =>
    cases h
    simp only [State.issueIllegal]
    split <;> exact .registers ..
  all_goals
    cases h
    exact issueProcessing_effect (by decide) (by decide)

theorem readMemData_effect (s : State) {i : Instr} : EffectA s i s.readMemData := by
  rcases s.readMemData_cases with ⟨-, hs⟩ | ⟨-, c, -, hs⟩ | ⟨-, -, hs⟩ <;> rw [hs] <;> exact .registers ..

theorem writeMemData_effect (s : State) (v : Word) : EffectA s (.aWriteMemData v) (s.writeMemData v) := by
  rcases s.writeMemData_cases v with ⟨-, hs⟩ | ⟨-, c, -, hs⟩ | ⟨-, -, hs⟩ <;> rw [hs]
  · exact .registers ..
  · exact .registers ..
  · exact .store v

theorem readRegisterA_effect (s : State) (off : BitVec 10) {i : Instr} : EffectA s i (s.readRegisterA off) := by
  by_cases hoff : off = offData
  · by_cases hr : s.a.ready = true
    · simpa [State.readRegisterA, hr, hoff] using readMemData_effect s
    · rw [State.readRegisterA_inReset (by simpa using hr)]
      exact .registers ..
  · rcases State.readRegisterA_cases hoff with ⟨-, hs⟩ | ⟨-, r, -, hs⟩ | ⟨-, -, hs⟩ <;> rw [hs] <;>
      exact .registers ..

/-- Everything an instruction of port A can do. -/
theorem exec_effectA {i : Instr} {s t : State} (hport : portOf i = .a) (h : exec i s = .next t) :
    EffectA s i t := by
  cases i with
  | aNopA | aWriteOther _ _ => cases h; exact .registers ..
  | aCapture => exact execCapture_effect h
  | aFilter | aWindow | aFft | aPower | aDbconv | aSpectrum =>
    cases h
    exact issueProcessing_effect (by decide) (by decide)
  | aEdge => exact execEdge_effect h
  | aPublish => exact execPublish_effect h
  | aRun => exact execRun_effect h
  | aReadMemData => cases h; exact readMemData_effect s
  | aReadOther off => cases h; exact readRegisterA_effect s off
  | aWriteMemData v => cases h; exact writeMemData_effect s v
  | aWriteCmdA w => exact execWriteCmdA_effect h
  | aWriteErrA _ | aWriteMemSel _ | aWriteMemIdx _ =>
    cases h
    split <;> exact .registers ..
  | _ => cases hport

theorem execPop_effect {s t : State} {i : Instr} (h : execPop s = .next t) : EffectB s i t := by
  cases h
  rcases s.issueB_cases 0x01 false s.acceptPop with
    ⟨-, hs⟩ | ⟨-, -, hs⟩ | ⟨-, -, -, hs⟩ | ⟨-, hidle, hstale, hs⟩ <;> rw [hs]
  · exact .registers ..
  · exact .registers ..
  · exact .registers ..
  · exact .pop hidle hstale

theorem execSwap_effect {s t : State} {i : Instr} (hi : i = .bSwap ∨ i = .bWriteCmdB 0x02)
    (h : execSwap s = .next t) : EffectB s i t := by
  cases h
  rcases s.issueB_cases 0x02 true s.swapBody with
    ⟨-, hs⟩ | ⟨-, -, hs⟩ | ⟨-, -, -, hs⟩ | ⟨-, hidle, hfresh, hs⟩ <;> rw [hs]
  · exact .registers ..
  · exact .registers ..
  · exact .registers ..
  · exact .swap hi hidle hfresh

theorem execWriteCmdB_effect {s t : State} {w : Word} (h : execWriteCmdB w s = .next t) :
    EffectB s (.bWriteCmdB w) t := by
  unfold execWriteCmdB at h
  split at h
  case h_1 => cases h; exact .registers ..
  case h_2 => exact execPop_effect h
  case h_3 hw => exact execSwap_effect (.inr (congrArg _ (BitVec.eq_of_toNat_eq hw))) h
  case h_4 =>
    cases h
    simp only [State.issueIllegal]
    split <;> exact .registers ..

theorem readRdData_effect (s : State) {i : Instr} : EffectB s i s.readRdData := by
  rcases s.readRdData_cases with ⟨-, hs⟩ | ⟨-, c, -, hs⟩ | ⟨-, -, hs⟩ <;> rw [hs] <;> exact .registers ..

theorem readRegisterB_effect (s : State) (off : BitVec 10) {i : Instr} : EffectB s i (s.readRegisterB off) := by
  by_cases hoff : off = offData
  · by_cases hr : s.b.ready = true
    · simpa [State.readRegisterB, hr, hoff] using readRdData_effect s
    · rw [State.readRegisterB_inReset (by simpa using hr)]
      exact .registers ..
  · rcases State.readRegisterB_cases hoff with ⟨-, hs⟩ | ⟨-, r, -, hs⟩ | ⟨-, -, hs⟩ <;> rw [hs] <;>
      exact .registers ..

/-- Everything an instruction of port B can do. -/
theorem exec_effectB {i : Instr} {s t : State} (hport : portOf i = .b) (h : exec i s = .next t) :
    EffectB s i t := by
  cases i with
  | bNopB | bWriteOther _ _ => cases h; exact .registers ..
  | bPop => exact execPop_effect h
  | bSwap => exact execSwap_effect (.inl rfl) h
  | bReadRdData => cases h; exact readRdData_effect s
  | bReadOther off => cases h; exact readRegisterB_effect s off
  | bWriteCmdB w => exact execWriteCmdB_effect h
  | bWriteErrB _ | bWriteRdSel _ | bWriteRdIdx _ =>
    cases h
    split <;> exact .registers ..
  | _ => cases hport

/-- Everything an instruction can do, on its port. -/
theorem exec_effect {i : Instr} {s t : State} (h : exec i s = .next t) : EffectA s i t ∨ EffectB s i t := by
  cases hport : portOf i with
  | a => exact .inl (exec_effectA hport h)
  | b => exact .inr (exec_effectB hport h)

end Sys2Proof.Machine
end

section
/-! PROOFS. The buffers: every way one of the block's moves writes them (`BufferWrite`), and from it their form
(R80 to R88), the buffer frame of the transactions (R90, R407) and that of the slots (R88, R358). -/

namespace Sys2Proof.Machine

/-! ## What leaves the buffers alone -/

@[simp] theorem State.finishA_mem (s : State) (next : ProducerPos) : (s.finishA next).mem = s.mem := by
  unfold State.finishA
  split <;> rfl

@[simp] theorem State.startPhase_mem (s : State) (ph : Phase) : (s.startPhase ph).mem = s.mem := by
  cases ph <;> rfl

@[simp] theorem State.captureEnd_mem (s : State) : s.captureEnd.mem = s.mem := by
  unfold State.captureEnd
  simp only
  split <;> rfl

@[simp] theorem State.edgeEnd_mem (s : State) (cnt : Word) : (s.edgeEnd cnt).mem = s.mem := by
  simp [State.edgeEnd]

@[simp] theorem State.publishTest_mem (s : State) : s.publishTest.mem = s.mem := by
  unfold State.publishTest
  split <;> rfl

@[simp] theorem State.publishEnd_mem (s : State) : s.publishEnd.mem = s.mem := by simp [State.publishEnd]

@[simp] theorem State.processEnd_mem (s : State) : s.processEnd.mem = s.processBody.mem := by
  simp [State.processEnd]

@[simp] theorem State.popTest_mem (s : State) : s.popTest.mem = s.mem := by
  unfold State.popTest
  split <;> rfl

/-! ## What writes them -/

/-- How a move from `s` to `t` writes the buffers: not at all, one element by a MEM_DATA write or a sample, by an
engine's body or copy, or as a domain leaves reset. -/
inductive BufferWrite (s t : State) : Prop
  | none (hmem : t.mem = s.mem)
  | window (v : Word) (hmem : t.mem = windowStore s.cfg s.mem s.a.memSel s.a.memIdx.toNat v)
  | sample (i v : Nat) (hmem : t.mem = (s.storeRaw i (adcBitsOf s.cfg v)).mem)
  | process (hmem : t.mem = s.processBody.mem)
  | publish (hpos : s.a.pos = .publishCopy) (hmem : t.mem = s.publishCopy.mem)
  | pop (hpos : s.b.pos = .popCopy) (hactive : t.b.active = s.b.active) (hmem : t.mem = s.popCopy.mem)
  | resetA (hready : s.a.ready = false) (hmem : t.mem = s.mem.resetA s.cfg s.draws)
  | resetB (hready : s.b.ready = false) (hmem : t.mem = s.mem.resetB s.cfg)

theorem producerStep_bufferWrite (s : State) : BufferWrite s (producerStep s) := by
  cases hpos : s.a.pos with
  | idle => exact .none (by rw [producerStep_idle hpos])
  | starting ph => exact .none (by rw [producerStep_starting hpos, State.startPhase_mem])
  | capture _ | edgeFirst | edgeScan _ _ | edgeFill _ _ | publish =>
    refine .none ?_
    simp only [producerStep, hpos]
    split_ifs <;> simp
  | body => exact .process (by rw [producerStep_body hpos, State.processEnd_mem])
  | publishCopy => exact .publish hpos (by rw [producerStep_publishCopy hpos])
  | publishToggle => exact .none (by rw [producerStep_publishToggle hpos, State.publishEnd_mem])

theorem consumerStep_bufferWrite (s : State) : BufferWrite s (consumerStep s) := by
  cases hpos : s.b.pos with
  | idle => exact .none (by rw [consumerStep_idle hpos])
  | pop =>
    refine .none ?_
    simp only [consumerStep, hpos]
    split_ifs <;> simp
  | popCopy => rw [consumerStep_popCopy hpos]; exact .pop hpos rfl rfl
  | popRelease => exact .none (by rw [consumerStep_popRelease hpos, State.popEnd_mem])

/-- A sample transfer stores the sample where the engine captures, and nowhere else. -/
theorem adcTransfer_bufferWrite (s : State) : BufferWrite s (adcTransfer s) := by
  cases hoffered : s.adcOffered with
  | nil => exact .none (by rw [adcTransfer_none hoffered])
  | cons v vs =>
    cases hwait : s.a.waitAdc with
    | false => exact .none (by rw [adcTransfer_not_ready hwait])
    | true =>
      rw [adcTransfer_ready hoffered hwait]
      cases hpos : s.a.pos with
      | capture i => exact .sample i v.toNat (by simp [State.takeSample, State.storeRaw, hpos])
      | edgeFill i _ => exact .sample i v.toNat (by simp [State.takeSample, State.storeRaw, hpos])
      | _ => exact .none (by simp [State.takeSample, hpos])

theorem agentStep_bufferWrite (g : Agent) (s : State) : BufferWrite s (agentStep g s) := by
  cases g with
  | producerEngine => exact producerStep_bufferWrite s
  | consumerEngine => exact consumerStep_bufferWrite s
  | adcSource => exact adcTransfer_bufferWrite s
  | reqSynchroniser => exact .none (by rcases reqSyncStep_cases s with ⟨-, hs⟩ | ⟨-, hs⟩ <;> simp [agentStep, hs])
  | ackSynchroniser => exact .none (by rcases ackSyncStep_cases s with ⟨-, hs⟩ | ⟨-, hs⟩ <;> simp [agentStep, hs])
  | clockA => exact .none (by simp only [agentStep, clockStepA]; split <;> rfl)
  | clockB => exact .none (by simp only [agentStep, clockStepB]; split <;> rfl)
  | resetSynchroniserA =>
    simp only [agentStep, leaveResetA]
    split
    · rename_i h
      exact .resetA (by simp_all) rfl
    · exact .none rfl
  | resetSynchroniserB =>
    simp only [agentStep, leaveResetB]
    split
    · rename_i h
      exact .resetB (by simp_all) rfl
    · exact .none rfl

theorem exec_bufferWrite {i : Instr} {s t : State} (h : exec i s = .next t) : BufferWrite s t := by
  rcases exec_effect h with hA | hB
  · cases hA with
    | store v => exact .window v rfl
    | _ => exact .none rfl
  · cases hB with
    | _ => exact .none rfl

/-- Every step writes the buffers in one of these ways; taking the move off the schedule or passing the turn on
comes first and touches nothing else. -/
theorem step_bufferWrite {s t : State} (h : step s = .next t) :
    ∃ es u, BufferWrite { s with sched := es, turn := u } t := by
  rcases step_cases h with ⟨-, rfl⟩ | ⟨r, es, i, -, -, hexec⟩ | ⟨g, es, -, rfl⟩ | ⟨v, es, -, rfl⟩
    | ⟨level, es, -, rfl⟩ | ⟨level, es, -, rfl⟩
  · exact ⟨_, _, agentStep_bufferWrite s.turn { s with turn := nextTurn s.turn }⟩
  · exact ⟨es, s.turn, exec_bufferWrite hexec⟩
  · exact ⟨es, s.turn, agentStep_bufferWrite g { s with sched := es }⟩
  · exact ⟨es, s.turn, .none rfl⟩
  · exact ⟨es, s.turn, .none (by cases level <;> rfl)⟩
  · exact ⟨es, s.turn, .none rfl⟩

/-! ## The form of the buffers -/

theorem processBody_wf {s : State} (h : s.mem.wf s.cfg = true) : s.processBody.mem.wf s.cfg = true := by
  unfold State.processBody
  split
  · exact filterBody_wf h
  · exact windowBody_wf h
  · exact fftBody_wf h
  · exact powerBody_wf h
  · exact dbconvBody_wf h
  · exact spectrumBody_wf h
  · exact spectrumBody_wf (s := s.filterBody) (filterBody_wf (s := s) h)
  · exact h

theorem BufferWrite.wf {s t : State} (hwrite : BufferWrite s t) (h : s.mem.wf s.cfg = true) :
    t.mem.wf s.cfg = true := by
  cases hwrite with
  | none hmem => rw [hmem]; exact h
  | window v hmem => rw [hmem]; exact windowStore_wf h _ _ v
  | sample i v hmem => rw [hmem]; exact storeRaw_wf h i v
  | process hmem => rw [hmem]; exact processBody_wf h
  | publish _ hmem => rw [hmem]; exact publishCopy_wf h
  | pop _ _ hmem => rw [hmem]; exact popCopy_wf h
  | resetA _ hmem => rw [hmem]; exact resetA_wf s.cfg s.draws (Memory.slot_length h false) (Memory.slot_length h true)
  | resetB _ hmem => rw [hmem]; exact resetB_wf h

/-- Settles O38, by the ways a step writes the buffers. -/
theorem everyStepKeepsTheBufferForm : Obligations.EveryStepKeepsTheBufferForm := by
  intro s t hwf h
  obtain ⟨es, u, hwrite⟩ := step_bufferWrite h
  obtain ⟨hcfg, -, -⟩ := parametersAndModeAreFixedBetweenResets s t h
  rw [hcfg]
  exact hwrite.wf hwf

/-! ## The buffer frame of the transactions -/

/-- A MEM_DATA write touches only the element its select and index name. -/
theorem windowStore_cell (p : Params) (m : Memory) (sel : BitVec 4) (i : Nat) (v : Word) {sp : Space} {k : Nat}
    (h : ¬ (writableSpace sel = some sp ∧ k = i)) : (windowStore p m sel i v).cell sp k = m.cell sp k := by
  have hne : writableSpace sel = some sp → i ≠ k := fun hw hik => h ⟨hw, hik.symm⟩
  unfold windowStore
  split
  case h_5 => rfl
  all_goals
    rename_i hsel
    cases sp <;> simp_all [Memory.cell, writableSpace]

/-- Settles O37, by what an instruction can do: of its effects only a MEM_DATA store reaches the buffers. -/
theorem transactionsWriteBuffersOnlyThroughMemData : Obligations.TransactionsWriteBuffersOnlyThroughMemData := by
  intro i s t h
  rcases exec_effect h with hA | hB
  · cases hA with
    | store v => exact ⟨fun hno => absurd rfl (hno v), fun sp k hne => windowStore_cell s.cfg s.mem _ _ v hne⟩
    | _ => exact ⟨fun _ => rfl, fun _ _ _ => rfl⟩
  · cases hB with
    | _ => exact ⟨fun _ => rfl, fun _ _ _ => rfl⟩

/-! ## The slots -/

/-- The bodies of a PROCESSING phase work in domain A's buffers only. -/
@[simp] theorem State.processBody_slot (s : State) (n : Bool) : s.processBody.mem.slot n = s.mem.slot n := by
  unfold State.processBody
  split <;> cases n <;> rfl

@[simp] theorem windowStore_slot (p : Params) (m : Memory) (sel : BitVec 4) (i : Nat) (v : Word) (n : Bool) :
    (windowStore p m sel i v).slot n = m.slot n := by
  unfold windowStore
  split <;> cases n <;> rfl

/-- Of the writes only POP's copy-in and domain B's reset reach a slot, the copy-in the one ACTIVE does not name. -/
theorem BufferWrite.slot_cases {s t : State} (hwrite : BufferWrite s t) (n : Bool) :
    t.mem.slot n = s.mem.slot n
    ∨ (n = !s.b.active ∧ t.b.active = s.b.active ∧ s.b.pos = .popCopy) ∨ s.b.ready = false := by
  cases hwrite with
  | none hmem => exact .inl (by rw [hmem])
  | window v hmem => exact .inl (by rw [hmem, windowStore_slot])
  | sample i v hmem => exact .inl (by rw [hmem]; cases n <;> rfl)
  | process hmem => exact .inl (by rw [hmem, State.processBody_slot])
  | publish _ hmem => exact .inl (by rw [hmem]; cases n <;> rfl)
  | resetA _ hmem => exact .inl (by rw [hmem]; cases n <;> rfl)
  | resetB hready _ => exact .inr (.inr hready)
  | pop hpos hactive hmem =>
    by_cases hn : n = !s.b.active
    · exact .inr (.inl ⟨hn, hactive, hpos⟩)
    · obtain rfl : s.b.active = n := by simpa using Ne.symm hn
      left
      rw [hmem]
      simpa [State.popCopy] using Memory.slot_setSlot_other s.mem (!s.b.active) _

end Sys2Proof.Machine
end

section
/-! PROOFS. The invariant of the engines and the handshake, read off: its parts by name, the four phases by their bits
(R371), what an engine's status is at each position (R51, R52, R63, R73). -/

namespace Sys2Proof.Machine

/-- Domain A held in reset (R43, R480). -/
def DomainA.inReset (m : Mode) : DomainA := { DomainA.afterReset m with ready := false }

/-- Domain B held in reset. -/
def DomainB.inReset (m : Mode) : DomainB := { DomainB.afterReset m with ready := false }

/-- The parts of `State.engineInv`, by name. -/
structure State.Consistent (s : State) : Prop where
  producer : s.a.engineOk s.cfg = true
  running : s.a.runningOk = true
  consumer : s.b.engineOk = true
  phase : s.handshake.isSome = true
  pin : s.rstN = true ∨ (s.a.ready = false ∧ s.b.ready = false)
  resetA : s.a.ready = true ∨ s.a = DomainA.inReset s.a.mode
  resetB : s.b.ready = true ∨ s.b = DomainB.inReset s.b.mode
  uncrossed : (s.a.ready = true ∧ s.b.ready = true)
    ∨ (s.b.reqSync = false ∧ s.b.ack = false ∧ s.a.ackSync = false ∧ s.b.popCnt = 0)
  counters : s.a.pubCnt = s.b.popCnt + (if s.frameOutstanding then 1 else 0)

theorem State.engineInv_iff (s : State) : s.engineInv = true ↔ s.Consistent := by
  constructor
  · intro h
    simp only [State.engineInv, State.resetOk, Bool.and_eq_true, Bool.or_eq_true, decide_eq_true_eq, beq_iff_eq,
      Bool.not_eq_true', and_assoc] at h
    obtain ⟨hproducer, hrunning, hconsumer, hphase, hpin, hresetA, hresetB, huncrossed, hcounters⟩ := h
    exact ⟨hproducer, hrunning, hconsumer, hphase, hpin, hresetA, hresetB, huncrossed, hcounters⟩
  · rintro ⟨hproducer, hrunning, hconsumer, hphase, hpin, hresetA, hresetB, huncrossed, hcounters⟩
    simp only [State.engineInv, State.resetOk, Bool.and_eq_true, Bool.or_eq_true, decide_eq_true_eq, beq_iff_eq,
      Bool.not_eq_true', and_assoc]
    exact ⟨hproducer, hrunning, hconsumer, hphase, hpin, hresetA, hresetB, huncrossed, hcounters⟩

/-! ## The phases of the handshake by their bits -/

/-- The four bits of the handshake: `req_a`, `req_sync_b`, `ack_b`, `ack_sync_a`. -/
def State.tokenBits (s : State) : Bool × Bool × Bool × Bool := (s.a.req, s.b.reqSync, s.b.ack, s.a.ackSync)

theorem State.tokenBits_eq_iff (s : State) {req reqSync ack ackSync : Bool} :
    s.tokenBits = (req, reqSync, ack, ackSync)
      ↔ s.a.req = req ∧ s.b.reqSync = reqSync ∧ s.b.ack = ack ∧ s.a.ackSync = ackSync := by
  simp [State.tokenBits]

/-- The table of R371: the four bits in each phase, from `req_a`. -/
def HandshakePhase.bits (req : Bool) : HandshakePhase → Bool × Bool × Bool × Bool
  | .idle => (req, req, req, req)
  | .tokenInFlight => (req, !req, !req, !req)
  | .tokenPending => (req, req, !req, !req)
  | .releaseInFlight => (req, req, req, !req)

theorem State.handshake_eq_some_iff (s : State) (ph : HandshakePhase) :
    s.handshake = some ph ↔ s.tokenBits = ph.bits s.a.req := by
  unfold State.handshake State.tokenBits
  generalize s.a.req = req, s.b.reqSync = reqSync, s.b.ack = ack, s.a.ackSync = ackSync
  cases ph <;> revert req reqSync ack ackSync <;> decide

/-- States of the same four bits are in the same phase. -/
theorem State.handshake_congr {s t : State} (h : t.tokenBits = s.tokenBits) : t.handshake = s.handshake := by
  simp only [State.tokenBits, Prod.mk.injEq] at h
  simp [State.handshake, h]

/-- A state of the invariant stands in one of the four phases. -/
theorem State.Consistent.exists_phase {s : State} (h : s.Consistent) : ∃ ph, s.handshake = some ph :=
  Option.isSome_iff_exists.mp h.phase

/-- STAGING_FREE is 1 in phase (a) only. -/
theorem State.Consistent.handshake_of_stagingFree {s : State} (h : s.Consistent) (hfree : s.a.stagingFree = true) :
    s.handshake = some .idle := by
  obtain ⟨ph, hph⟩ := h.exists_phase
  have hbits := (s.handshake_eq_some_iff ph).mp hph
  cases ph <;> simp_all [State.tokenBits, HandshakePhase.bits, DomainA.stagingFree]

/-- TOKEN_PENDING is 1 in phase (c) only. -/
theorem State.Consistent.handshake_of_tokenPending {s : State} (h : s.Consistent)
    (hpending : s.b.tokenPending = true) : s.handshake = some .tokenPending := by
  obtain ⟨ph, hph⟩ := h.exists_phase
  have hbits := (s.handshake_eq_some_iff ph).mp hph
  cases ph <;> simp_all [State.tokenBits, HandshakePhase.bits, DomainB.tokenPending]

/-! ## Domain A's status, position by position -/

theorem DomainA.atWork_iff (a : DomainA) (ph : Phase) (adcEn : Bool) :
    a.atWork ph adcEn = true ↔ a.busy = true ∧ a.phase = ph ∧ a.adcEn = adcEn := by
  simp [DomainA.atWork, and_assoc]

section
variable {p : Params} {a : DomainA}

theorem DomainA.engineOk_idle (h : a.pos = .idle) :
    a.engineOk p = true ↔ a.busy = false ∧ a.op = 0 ∧ a.phase = .idle ∧ a.adcEn = false ∧ a.waitAdc = false
      ∧ a.waitStaging = false := by
  simp [DomainA.engineOk, h, and_assoc]

theorem DomainA.engineOk_starting {ph : Phase} (h : a.pos = .starting ph) :
    a.engineOk p = true ↔ a.atWork .idle false = true ∧ a.waitAdc = false ∧ a.waitStaging = false
      ∧ a.mayStart ph = true := by
  cases ph <;> simp [DomainA.engineOk, DomainA.mayStart, h, and_assoc]

theorem DomainA.engineOk_capture {i : Nat} (h : a.pos = .capture i) :
    a.engineOk p = true ↔ a.atWork .capturing true = true ∧ a.inCapture = true ∧ a.waitStaging = false
      ∧ i ≤ p.rawSamples ∧ (a.waitAdc = true → i < p.rawSamples) := by
  simp [DomainA.engineOk, h, and_assoc, imp_iff_not_or]

theorem DomainA.engineOk_edgeFirst (h : a.pos = .edgeFirst) :
    a.engineOk p = true ↔ a.atWork .capturing true = true ∧ a.inEdge = true ∧ a.waitStaging = false := by
  simp [DomainA.engineOk, h, and_assoc]

theorem DomainA.engineOk_edgeScan {prev : Half} {cnt : Word} (h : a.pos = .edgeScan prev cnt) :
    a.engineOk p = true ↔ a.atWork .capturing true = true ∧ a.inEdge = true ∧ a.waitStaging = false := by
  simp [DomainA.engineOk, h, and_assoc]

theorem DomainA.engineOk_edgeFill {i : Nat} {cnt : Word} (h : a.pos = .edgeFill i cnt) :
    a.engineOk p = true ↔ a.atWork .capturing true = true ∧ a.inEdge = true ∧ a.waitStaging = false
      ∧ i ≤ p.oscSamples ∧ (a.waitAdc = true → i < p.oscSamples) := by
  simp [DomainA.engineOk, h, and_assoc, imp_iff_not_or]

theorem DomainA.engineOk_body (h : a.pos = .body) :
    a.engineOk p = true ↔ a.atWork .processing false = true ∧ a.inProcessing = true ∧ a.waitAdc = false
      ∧ a.waitStaging = false := by
  simp [DomainA.engineOk, h, and_assoc]

theorem DomainA.engineOk_publish (h : a.pos = .publish) :
    a.engineOk p = true ↔ a.atWork .publishing false = true ∧ a.inPublish = true ∧ a.waitAdc = false
      ∧ (a.waitStaging = true → a.stagingFree = false) := by
  simp [DomainA.engineOk, h, and_assoc, imp_iff_not_or]

theorem DomainA.engineOk_publishCopy (h : a.pos = .publishCopy) :
    a.engineOk p = true ↔ a.atWork .publishing false = true ∧ a.inPublish = true ∧ a.waitAdc = false
      ∧ a.waitStaging = false ∧ a.stagingFree = true := by
  simp [DomainA.engineOk, h, and_assoc]

theorem DomainA.engineOk_publishToggle (h : a.pos = .publishToggle) :
    a.engineOk p = true ↔ a.atWork .publishing false = true ∧ a.inPublish = true ∧ a.waitAdc = false
      ∧ a.waitStaging = false ∧ a.stagingFree = true := by
  simp [DomainA.engineOk, h, and_assoc]

/-- RUNNING is 1 exactly while OP is RUN's. -/
theorem DomainA.runningOk_iff : a.runningOk = true ↔ a.running = (a.op == opRun) := by
  simp [DomainA.runningOk]

/-- An engine that is not BUSY stands idle. -/
theorem DomainA.pos_idle_of_not_busy (h : a.engineOk p = true) (hidle : a.busy = false) : a.pos = .idle := by
  cases hpos : a.pos <;> simp_all [DomainA.engineOk, DomainA.atWork]

end

/-! ## Domain B's status, position by position -/

section
variable {b : DomainB}

theorem DomainB.engineOk_idle (h : b.pos = .idle) :
    b.engineOk = true ↔ b.busy = false ∧ b.op = 0 ∧ b.waitToken = false := by
  simp [DomainB.engineOk, h, and_assoc]

theorem DomainB.engineOk_pop (h : b.pos = .pop) :
    b.engineOk = true ↔ b.busy = true ∧ b.op = 0x01 ∧ b.fresh = false
      ∧ (b.waitToken = true → b.tokenPending = false) := by
  simp [DomainB.engineOk, h, and_assoc, imp_iff_not_or]

theorem DomainB.engineOk_popCopy (h : b.pos = .popCopy) :
    b.engineOk = true ↔ b.busy = true ∧ b.op = 0x01 ∧ b.fresh = false ∧ b.waitToken = false
      ∧ b.tokenPending = true := by
  simp [DomainB.engineOk, h, and_assoc]

theorem DomainB.engineOk_popRelease (h : b.pos = .popRelease) :
    b.engineOk = true ↔ b.busy = true ∧ b.op = 0x01 ∧ b.fresh = false ∧ b.waitToken = false
      ∧ b.tokenPending = true := by
  simp [DomainB.engineOk, h, and_assoc]

/-- An engine that is not BUSY stands idle. -/
theorem DomainB.pos_idle_of_not_busy (h : b.engineOk = true) (hidle : b.busy = false) : b.pos = .idle := by
  cases hpos : b.pos <;> simp_all [DomainB.engineOk]

end

/-- Settles O44, by the ways a step writes the buffers: at POP's copy the status of domain B and the phase are those of
its position. -/
theorem slotsChangeOnlyByCopyIn : Obligations.SlotsChangeOnlyByCopyIn := by
  intro s t n hinv h hchanged
  have hs := (State.engineInv_iff s).mp hinv
  obtain ⟨es, u, hwrite⟩ := step_bufferWrite h
  rcases hwrite.slot_cases n with hkept | ⟨hn, hactive, hpos⟩ | hready
  · exact absurd hkept hchanged
  · obtain ⟨hbusy, -, -, -, hpending⟩ := (DomainB.engineOk_popCopy hpos).mp hs.consumer
    exact .inl ⟨hn, hactive, hpos, hbusy, hs.handshake_of_tokenPending hpending⟩
  · exact .inr hready

end Sys2Proof.Machine
end

section
/-! PROOFS. Domain A's moves keep the invariant of the engines and the handshake (R51, R325, R326). -/

namespace Sys2Proof.Machine

/-! ## What the producer engine leaves alone -/

/-- What the invariant reads beside domain A's status: all that a move of domain A keeps, but for the token it sends
and the release it receives. -/
def State.besideProducer (s : State) : Params × Bool × DomainB × Bool × Bool × Bool × Word :=
  (s.cfg, s.rstN, s.b, s.a.ready, s.a.req, s.a.ackSync, s.a.pubCnt)

@[simp] theorem State.endPhase_besideProducer (s : State) (ph : Phase) :
    (s.endPhase ph).besideProducer = s.besideProducer := rfl

@[simp] theorem State.finishA_besideProducer (s : State) (next : ProducerPos) :
    (s.finishA next).besideProducer = s.besideProducer := by
  unfold State.finishA
  split <;> rfl

@[simp] theorem State.processBody_besideProducer (s : State) :
    s.processBody.besideProducer = s.besideProducer := by
  unfold State.processBody
  split <;> rfl

/-- A move of domain A out of reset keeps the invariant, if it leaves the domain's status in agreement with its position,
the four bits in a phase and the counters apart by the frame outstanding. -/
theorem State.Consistent.of_domainA {s t : State} (h : s.Consistent) (hready : s.a.ready = true)
    (hframe : t.cfg = s.cfg ∧ t.rstN = s.rstN ∧ t.b = s.b ∧ t.a.ready = s.a.ready)
    (hok : t.a.engineOk s.cfg = true) (hrunning : t.a.runningOk = true) (hphase : t.handshake.isSome = true)
    (hack : t.a.ackSync = s.a.ackSync ∨ t.a.ackSync = s.b.ack)
    (hcounters : t.a.pubCnt = t.b.popCnt + (if t.frameOutstanding then 1 else 0)) : t.Consistent := by
  obtain ⟨hcfg, hrstN, hb, hreadyA⟩ := hframe
  refine ⟨hcfg ▸ hok, hrunning, hb ▸ h.consumer, hphase, ?_, .inl (hreadyA.trans hready), hb ▸ h.resetB, ?_, hcounters⟩
  · rw [hrstN, hreadyA, hb]
    exact h.pin
  · rw [hreadyA, hb]
    refine h.uncrossed.imp id fun ⟨hreqSync, hackB, hackSync, hpopCnt⟩ => ⟨hreqSync, hackB, ?_, hpopCnt⟩
    rcases hack with hack | hack
    · exact hack.trans hackSync
    · exact hack.trans hackB

/-- A move of domain A out of reset that neither sends a token nor receives a release, and leaves the domain's status in
agreement with its position, keeps the invariant and the four bits. -/
theorem State.Consistent.of_besideProducer {s t : State} (h : s.Consistent) (hready : s.a.ready = true)
    (hframe : t.besideProducer = s.besideProducer) (hok : t.a.engineOk s.cfg = true)
    (hrunning : t.a.runningOk = true) : t.Consistent ∧ t.tokenBits = s.tokenBits := by
  simp only [State.besideProducer, Prod.mk.injEq] at hframe
  obtain ⟨hcfg, hrstN, hb, hreadyA, hreq, hack, hcnt⟩ := hframe
  have hbits : t.tokenBits = s.tokenBits := by simp [State.tokenBits, hreq, hack, hb]
  have hframes : t.frameOutstanding = s.frameOutstanding := by simp [State.frameOutstanding, hreq, hb]
  refine ⟨h.of_domainA hready ⟨hcfg, hrstN, hb, hreadyA⟩ hok hrunning (State.handshake_congr hbits ▸ h.phase)
    (.inl hack) ?_, hbits⟩
  rw [hcnt, hb, hframes]
  exact h.counters

/-! ## The producer engine's steps -/

/-- What a step of the producer engine that sends no token does: `t` differs from `s` in domain A's own registers only,
and its status agrees with its position. -/
def ProducerMove (s t : State) : Prop :=
  t.besideProducer = s.besideProducer ∧ t.a.engineOk s.cfg = true ∧ t.a.runningOk = true

theorem ProducerMove.refl {s : State} (h : s.Consistent) : ProducerMove s s := ⟨rfl, h.producer, h.running⟩

/-! RUN has every phase, but for PROCESSING in OSCILLOSCOPE mode (R322). -/

theorem DomainA.mayStart_capturing_of_run {a : DomainA} (h : a.op = opRun) : a.mayStart .capturing = true := by
  cases hmode : a.mode <;> simp [DomainA.mayStart, DomainA.inCapture, DomainA.inEdge, h, hmode]

theorem DomainA.mayStart_processing_of_run {a : DomainA} (h : a.op = opRun) (hmode : a.mode = .spectrum) :
    a.mayStart .processing = true := by
  simp [DomainA.mayStart, DomainA.inProcessing, h, hmode]

theorem DomainA.mayStart_publishing_of_run {a : DomainA} (h : a.op = opRun) : a.mayStart .publishing = true := by
  simp [DomainA.mayStart, DomainA.inPublish, h]

/-- The end of a phase leaves the engine between two phases of RUN, or idle. -/
theorem State.finishA_status {p : Params} {s : State} {ph : Phase} (hwork : s.a.atWork .idle false = true)
    (hrunning : s.a.runningOk = true) (hadc : s.a.waitAdc = false) (hstaging : s.a.waitStaging = false)
    (hnext : s.a.op = opRun → s.a.mayStart ph = true) :
    (s.finishA (.starting ph)).a.engineOk p = true ∧ (s.finishA (.starting ph)).a.runningOk = true := by
  obtain ⟨-, hphase, hen⟩ := (DomainA.atWork_iff ..).mp hwork
  by_cases hop : s.a.op = opRun
  · rw [State.finishA_run hop]
    exact ⟨(DomainA.engineOk_starting rfl).mpr ⟨hwork, hadc, hstaging, hnext hop⟩, hrunning⟩
  · rw [State.finishA_command hop]
    refine ⟨(DomainA.engineOk_idle rfl).mpr ⟨rfl, rfl, hphase, hen, hadc, hstaging⟩, ?_⟩
    rw [DomainA.runningOk_iff] at hrunning ⊢
    have hstopped : s.a.running = false := hrunning.trans (beq_eq_false_iff_ne.mpr hop)
    exact hstopped

/-- A CAPTURING phase that is EDGE's belongs to EDGE or to RUN in OSCILLOSCOPE mode. -/
theorem DomainA.inEdge_of_capturesEdge {a : DomainA} (hstart : a.mayStart .capturing = true)
    (hedge : a.capturesEdge = true) : a.inEdge = true := by
  cases hmode : a.mode with
  | oscilloscope => simpa [DomainA.mayStart, DomainA.inCapture, hmode] using hstart
  | spectrum =>
    have hop : a.op = 0x01 ∨ a.op = opRun := by
      simpa [DomainA.mayStart, DomainA.inCapture, DomainA.inEdge, hmode] using hstart
    have hop' : a.op = opEdge := by simpa [DomainA.capturesEdge, hmode] using hedge
    rcases hop with hop | hop <;> exact absurd (hop.symm.trans hop') (by decide)

/-- A CAPTURING phase that is not EDGE's belongs to CAPTURE or to RUN in SPECTRUM mode. -/
theorem DomainA.inCapture_of_not_capturesEdge {a : DomainA} (hstart : a.mayStart .capturing = true)
    (hedge : ¬ a.capturesEdge = true) : a.inCapture = true := by
  cases hmode : a.mode <;> simp_all [DomainA.mayStart, DomainA.inCapture, DomainA.inEdge, DomainA.capturesEdge]

theorem startPhase_move {s : State} {ph : Phase} (h : s.Consistent) (hpos : s.a.pos = .starting ph) :
    ProducerMove s (s.startPhase ph) := by
  obtain ⟨hwork, hadc, hstaging, hstart⟩ := (DomainA.engineOk_starting hpos).mp h.producer
  obtain ⟨hbusy, -, hen⟩ := (DomainA.atWork_iff ..).mp hwork
  cases ph with
  | idle => cases hstart
  | processing =>
    exact ⟨rfl, (DomainA.engineOk_body rfl).mpr
      ⟨(DomainA.atWork_iff ..).mpr ⟨hbusy, rfl, hen⟩, hstart, hadc, hstaging⟩, h.running⟩
  | publishing =>
    exact ⟨rfl, (DomainA.engineOk_publish rfl).mpr
      ⟨(DomainA.atWork_iff ..).mpr ⟨hbusy, rfl, hen⟩, hstart, hadc,
        fun hw => absurd (hstaging.symm.trans hw) Bool.false_ne_true⟩, h.running⟩
  | capturing =>
    refine ⟨rfl, ?_, h.running⟩
    have hwork' : (s.startPhase .capturing).a.atWork .capturing true = true :=
      (DomainA.atWork_iff ..).mpr ⟨hbusy, rfl, rfl⟩
    by_cases hedge : s.a.capturesEdge = true
    · exact (DomainA.engineOk_edgeFirst (if_pos hedge)).mpr
        ⟨hwork', DomainA.inEdge_of_capturesEdge hstart hedge, hstaging⟩
    · exact (DomainA.engineOk_capture (if_neg hedge)).mpr
        ⟨hwork', DomainA.inCapture_of_not_capturesEdge hstart hedge, hstaging, Nat.zero_le _,
          fun hw => absurd (hadc.symm.trans hw) Bool.false_ne_true⟩

theorem holdAdc_move {s : State} (h : s.Consistent) (hok : s.holdAdc.a.engineOk s.cfg = true) :
    ProducerMove s s.holdAdc := ⟨rfl, hok, h.running⟩

/-- The end of CAPTURE, which is in SPECTRUM mode: RUN goes on at either of its phases, CAPTURE completes. -/
theorem captureEnd_move {s : State} {i : Nat} (h : s.Consistent) (hpos : s.a.pos = .capture i)
    (hadc : s.a.waitAdc = false) : ProducerMove s s.captureEnd := by
  obtain ⟨hwork, hin, hstaging, -, -⟩ := (DomainA.engineOk_capture hpos).mp h.producer
  obtain ⟨hbusy, -, -⟩ := (DomainA.atWork_iff ..).mp hwork
  have hrunning := h.running
  by_cases hop : s.a.op = opRun
  · have hmode : s.a.mode = .spectrum := by
      simp only [DomainA.inCapture, Bool.and_eq_true, decide_eq_true_eq] at hin
      exact hin.2
    have hend : s.captureEnd = (({ s with a := { s.a with adcEn := false } }).endPhase .capturing).divide := if_pos hop
    rw [hend]
    refine ⟨rfl, (DomainA.engineOk_starting rfl).mpr
      ⟨(DomainA.atWork_iff ..).mpr ⟨hbusy, rfl, rfl⟩, hadc, hstaging, ?_⟩, hrunning⟩
    split
    · exact DomainA.mayStart_processing_of_run hop hmode
    · exact DomainA.mayStart_capturing_of_run hop
  · have hend : s.captureEnd = (({ s with a := { s.a with adcEn := false } }).endPhase .capturing).completeA :=
      if_neg hop
    rw [hend, ← State.finishA_command (by exact hop) (.starting .capturing)]
    exact ⟨State.finishA_besideProducer .., State.finishA_status ((DomainA.atWork_iff ..).mpr ⟨hbusy, rfl, rfl⟩) hrunning
      hadc hstaging fun hrun => absurd hrun hop⟩

theorem edgeEnd_move {s : State} {i : Nat} {cnt : Word} (h : s.Consistent) (hpos : s.a.pos = .edgeFill i cnt)
    (hadc : s.a.waitAdc = false) : ProducerMove s (s.edgeEnd cnt) := by
  obtain ⟨hwork, -, hstaging, -, -⟩ := (DomainA.engineOk_edgeFill hpos).mp h.producer
  obtain ⟨hbusy, -, -⟩ := (DomainA.atWork_iff ..).mp hwork
  exact ⟨State.finishA_besideProducer .., State.finishA_status ((DomainA.atWork_iff ..).mpr ⟨hbusy, rfl, rfl⟩) h.running
    hadc hstaging DomainA.mayStart_publishing_of_run⟩

/-- The body of a PROCESSING phase changes FILT_LEN alone of domain A. -/
theorem processBody_a (s : State) : ∃ n, s.processBody.a = { s.a with filtLen := n } := by
  unfold State.processBody
  split
  case h_1 | h_7 => exact ⟨BitVec.ofNat 16 (filterLength s.cfg), rfl⟩
  all_goals exact ⟨s.a.filtLen, rfl⟩

theorem processEnd_move {s : State} (h : s.Consistent) (hpos : s.a.pos = .body) : ProducerMove s s.processEnd := by
  obtain ⟨hwork, -, hadc, hstaging⟩ := (DomainA.engineOk_body hpos).mp h.producer
  obtain ⟨hbusy, -, hen⟩ := (DomainA.atWork_iff ..).mp hwork
  obtain ⟨n, ha⟩ := processBody_a s
  refine ⟨by simp [State.processEnd], State.finishA_status ?_ ?_ ?_ ?_ DomainA.mayStart_publishing_of_run⟩
  all_goals simp only [State.endPhase, ha]
  · exact (DomainA.atWork_iff ..).mpr ⟨hbusy, rfl, hen⟩
  · exact h.running
  · exact hadc
  · exact hstaging

theorem publishTest_move {s : State} (h : s.Consistent) (hpos : s.a.pos = .publish) (hstaging : s.a.waitStaging = false) :
    ProducerMove s s.publishTest := by
  obtain ⟨hwork, hin, hadc, -⟩ := (DomainA.engineOk_publish hpos).mp h.producer
  by_cases hfree : s.a.stagingFree = true
  · rw [show s.publishTest = s.setPos .publishCopy from if_pos hfree]
    exact ⟨rfl, (DomainA.engineOk_publishCopy rfl).mpr ⟨hwork, hin, hadc, hstaging, hfree⟩, h.running⟩
  · rw [show s.publishTest = { s with a := { s.a with waitStaging := true } } from if_neg hfree]
    exact ⟨rfl, (DomainA.engineOk_publish (by exact hpos)).mpr
      ⟨hwork, hin, hadc, fun _ => Bool.eq_false_iff.mpr hfree⟩, h.running⟩

theorem publishCopy_move {s : State} (h : s.Consistent) (hpos : s.a.pos = .publishCopy) :
    ProducerMove s s.publishCopy :=
  ⟨rfl, (DomainA.engineOk_publishToggle rfl).mpr ((DomainA.engineOk_publishCopy hpos).mp h.producer), h.running⟩

/-- Every step of the producer engine but the one that sends the token. -/
theorem producerStep_move {s : State} (h : s.Consistent) (hpos : s.a.pos ≠ .publishToggle) :
    ProducerMove s (producerStep s) := by
  cases hpos' : s.a.pos with
  | idle => rw [producerStep_idle hpos']; exact .refl h
  | starting ph => rw [producerStep_starting hpos']; exact startPhase_move h hpos'
  | body => rw [producerStep_body hpos']; exact processEnd_move h hpos'
  | publishCopy => rw [producerStep_publishCopy hpos']; exact publishCopy_move h hpos'
  | publishToggle => exact absurd hpos' hpos
  | publish =>
    cases hstaging : s.a.waitStaging with
    | true => rw [producerStep_publish_held hpos' hstaging]; exact .refl h
    | false => rw [producerStep_publish hpos' hstaging]; exact publishTest_move h hpos' hstaging
  | capture i =>
    cases hadc : s.a.waitAdc with
    | true => rw [producerStep_held hadc (.inl ⟨i, hpos'⟩)]; exact .refl h
    | false =>
      obtain ⟨hwork, hin, hstaging, hle, -⟩ := (DomainA.engineOk_capture hpos').mp h.producer
      by_cases hi : i < s.cfg.rawSamples
      · rw [producerStep_capture_lt hpos' hadc hi]
        exact holdAdc_move h ((DomainA.engineOk_capture (a := s.holdAdc.a) hpos').mpr
          ⟨hwork, hin, hstaging, hle, fun _ => hi⟩)
      · rw [producerStep_capture_ge hpos' hadc (Nat.not_lt.mp hi)]
        exact captureEnd_move h hpos' hadc
  | edgeFirst =>
    cases hadc : s.a.waitAdc with
    | true => rw [producerStep_held hadc (.inr (.inl hpos'))]; exact .refl h
    | false =>
      rw [producerStep_edgeFirst hpos' hadc]
      exact holdAdc_move h ((DomainA.engineOk_edgeFirst (a := s.holdAdc.a) hpos').mpr
        ((DomainA.engineOk_edgeFirst hpos').mp h.producer))
  | edgeScan prev cnt =>
    cases hadc : s.a.waitAdc with
    | true => rw [producerStep_held hadc (.inr (.inr (.inl ⟨prev, cnt, hpos'⟩)))]; exact .refl h
    | false =>
      rw [producerStep_edgeScan hpos' hadc]
      exact holdAdc_move h ((DomainA.engineOk_edgeScan (a := s.holdAdc.a) hpos').mpr
        ((DomainA.engineOk_edgeScan hpos').mp h.producer))
  | edgeFill i cnt =>
    cases hadc : s.a.waitAdc with
    | true => rw [producerStep_held hadc (.inr (.inr (.inr ⟨i, cnt, hpos'⟩)))]; exact .refl h
    | false =>
      obtain ⟨hwork, hin, hstaging, hle, -⟩ := (DomainA.engineOk_edgeFill hpos').mp h.producer
      by_cases hi : i < s.cfg.oscSamples
      · rw [producerStep_edgeFill_lt hpos' hadc hi]
        exact holdAdc_move h ((DomainA.engineOk_edgeFill (a := s.holdAdc.a) hpos').mpr
          ⟨hwork, hin, hstaging, hle, fun _ => hi⟩)
      · rw [producerStep_edgeFill_ge hpos' hadc (Nat.not_lt.mp hi)]
        exact edgeEnd_move h hpos' hadc

end Sys2Proof.Machine
end

section
/-! PROOFS. Every step keeps the invariant of the engines and the handshake, and the phases of R371 follow each other in
their order. -/

namespace Sys2Proof.Machine

/-! ## Domain A: samples, transactions, the clock -/

/-- Domain A in reset: the engine stands idle, nothing is waited for, no token was sent. -/
theorem State.Consistent.a_inReset {s : State} (h : s.Consistent) (hready : s.a.ready = false) :
    s.a = DomainA.inReset s.a.mode := by
  simpa [hready] using h.resetA

/-- Domain B in reset. -/
theorem State.Consistent.b_inReset {s : State} (h : s.Consistent) (hready : s.b.ready = false) :
    s.b = DomainB.inReset s.b.mode := by
  simpa [hready] using h.resetB

/-- A move that domain A makes only out of reset. -/
theorem ProducerMove.consistent {s t : State} (h : s.Consistent) (hmove : ProducerMove s t)
    (hstill : s.a.ready = false → t = s) : t.Consistent ∧ t.tokenBits = s.tokenBits := by
  cases hready : s.a.ready with
  | false => rw [hstill hready]; exact ⟨h, rfl⟩
  | true =>
    obtain ⟨hframe, hok, hrunning⟩ := hmove
    exact h.of_besideProducer hready hframe hok hrunning

/-- The engine takes a sample only where it is held for one, and is free after it. -/
theorem adcTransfer_move {s : State} (h : s.Consistent) : ProducerMove s (adcTransfer s) := by
  cases hoffered : s.adcOffered with
  | nil => rw [adcTransfer_none hoffered]; exact .refl h
  | cons v vs =>
    cases hwait : s.a.waitAdc with
    | false => rw [adcTransfer_not_ready hwait]; exact .refl h
    | true =>
      rw [adcTransfer_ready hoffered hwait]
      generalize adcBitsOf s.cfg v.toNat = w
      cases hpos : s.a.pos with
      | capture i =>
        obtain ⟨hwork, hin, hstaging, -, hlt⟩ := (DomainA.engineOk_capture hpos).mp h.producer
        rw [State.takeSample_capture (by exact hpos)]
        exact ⟨rfl, (DomainA.engineOk_capture rfl).mpr ⟨hwork, hin, hstaging, hlt hwait, nofun⟩, h.running⟩
      | edgeFirst =>
        rw [State.takeSample_edgeFirst (by exact hpos)]
        exact ⟨rfl, (DomainA.engineOk_edgeScan rfl).mpr ((DomainA.engineOk_edgeFirst hpos).mp h.producer), h.running⟩
      | edgeScan prev cnt =>
        obtain ⟨hwork, hin, hstaging⟩ := (DomainA.engineOk_edgeScan hpos).mp h.producer
        rw [State.takeSample_edgeScan (by exact hpos)]
        refine ⟨rfl, ?_, h.running⟩
        by_cases htrigger : triggers prev w = true
        · exact (DomainA.engineOk_edgeFill (if_pos htrigger)).mpr ⟨hwork, hin, hstaging, Nat.zero_le _, nofun⟩
        · exact (DomainA.engineOk_edgeScan (if_neg htrigger)).mpr ⟨hwork, hin, hstaging⟩
      | edgeFill i cnt =>
        obtain ⟨hwork, hin, hstaging, -, hlt⟩ := (DomainA.engineOk_edgeFill hpos).mp h.producer
        rw [State.takeSample_edgeFill (by exact hpos)]
        exact ⟨rfl, (DomainA.engineOk_edgeFill rfl).mpr ⟨hwork, hin, hstaging, hlt hwait, nofun⟩, h.running⟩
      | _ =>
        have hfree : s.a.waitAdc = false := by
          have hok := h.producer
          simp_all [DomainA.engineOk]
        exact absurd (hfree.symm.trans hwait) Bool.false_ne_true

/-- An accepted command finds the engine idle, and RUNNING 0. -/
theorem EffectA.move {s t : State} {i : Instr} (h : s.Consistent) (heffect : EffectA s i t) : ProducerMove s t := by
  cases heffect with
  | registers | store => exact ⟨rfl, h.producer, h.running⟩
  | accept op ph hidle hop hstart =>
    obtain ⟨-, hop0, hphase, hen, hadc, hstaging⟩ :=
      (DomainA.engineOk_idle (DomainA.pos_idle_of_not_busy h.producer hidle)).mp h.producer
    refine ⟨rfl, (DomainA.engineOk_starting rfl).mpr
      ⟨(DomainA.atWork_iff ..).mpr ⟨rfl, hphase, hen⟩, hadc, hstaging, hstart⟩, DomainA.runningOk_iff.mpr ?_⟩
    have hstopped : s.a.running = false := by
      rw [DomainA.runningOk_iff.mp h.running, hop0]; rfl
    exact hstopped.trans (beq_eq_false_iff_ne.mpr hop).symm
  | acceptRun hidle =>
    obtain ⟨-, -, hphase, hen, hadc, hstaging⟩ :=
      (DomainA.engineOk_idle (DomainA.pos_idle_of_not_busy h.producer hidle)).mp h.producer
    exact ⟨rfl, (DomainA.engineOk_starting rfl).mpr
      ⟨(DomainA.atWork_iff ..).mpr ⟨rfl, hphase, hen⟩, hadc, hstaging, DomainA.mayStart_capturing_of_run rfl⟩,
      DomainA.runningOk_iff.mpr rfl⟩

/-- In reset port A's transactions change nothing: the read data is already 0. -/
theorem exec_still_inResetA {i : Instr} {s t : State} (h : s.Consistent) (hport : portOf i = .a)
    (hready : s.a.ready = false) (hexec : exec i s = .next t) : t = s := by
  have hrdata : s.answerA 0 = s := by
    have hr : s.a.rdata = 0 := by rw [h.a_inReset hready]; rfl
    simp [State.answerA, ← hr]
  rw [exec_inResetA hport hready] at hexec
  cases hexec
  split
  · exact hrdata
  · rfl

theorem exec_consistentA {i : Instr} {s t : State} (h : s.Consistent) (hport : portOf i = .a)
    (hexec : exec i s = .next t) : t.Consistent ∧ t.tokenBits = s.tokenBits :=
  ((exec_effectA hport hexec).move h).consistent h fun hready => exec_still_inResetA h hport hready hexec

theorem adcTransfer_consistent {s : State} (h : s.Consistent) :
    (adcTransfer s).Consistent ∧ (adcTransfer s).tokenBits = s.tokenBits :=
  (adcTransfer_move h).consistent h fun hready => adcTransfer_not_ready (by rw [h.a_inReset hready]; rfl)

theorem clockStepA_consistent {s : State} (h : s.Consistent) :
    (clockStepA s).Consistent ∧ (clockStepA s).tokenBits = s.tokenBits := by
  unfold clockStepA
  split
  · exact ProducerMove.consistent h ⟨rfl, h.producer, h.running⟩ (by simp_all)
  · exact ⟨h, rfl⟩

/-! ## Domain B -/

/-- What the invariant reads beside domain B's status: all that a move of domain B keeps, but for the token it receives
and the release it sends. -/
def State.besideConsumer (s : State) : Params × Bool × DomainA × Bool × Bool × Bool × Word :=
  (s.cfg, s.rstN, s.a, s.b.ready, s.b.reqSync, s.b.ack, s.b.popCnt)

/-- What a step of the consumer engine that sends no release does. -/
def ConsumerMove (s t : State) : Prop :=
  t.besideConsumer = s.besideConsumer ∧ t.b.engineOk = true

theorem ConsumerMove.refl {s : State} (h : s.Consistent) : ConsumerMove s s := ⟨rfl, h.consumer⟩

/-- A move of domain B out of reset keeps the invariant, if it leaves the domain's status in agreement with its position,
the four bits in a phase and the counters apart by the frame outstanding. -/
theorem State.Consistent.of_domainB {s t : State} (h : s.Consistent) (hready : s.b.ready = true)
    (hframe : t.cfg = s.cfg ∧ t.rstN = s.rstN ∧ t.a = s.a ∧ t.b.ready = s.b.ready)
    (hok : t.b.engineOk = true) (hphase : t.handshake.isSome = true)
    (huncrossed : s.a.ready = true ∨ (t.b.reqSync = false ∧ t.b.ack = false ∧ t.b.popCnt = 0))
    (hcounters : t.a.pubCnt = t.b.popCnt + (if t.frameOutstanding then 1 else 0)) : t.Consistent := by
  obtain ⟨hcfg, hrstN, ha, hreadyB⟩ := hframe
  refine ⟨hcfg ▸ ha ▸ h.producer, ha ▸ h.running, hok, hphase, ?_, ha ▸ h.resetA, .inl (hreadyB.trans hready), ?_,
    hcounters⟩
  · rw [hrstN, hreadyB, ha]
    exact h.pin
  · rw [hreadyB, ha]
    rcases h.uncrossed with hboth | ⟨-, -, hackSync, -⟩
    · exact .inl hboth
    · exact huncrossed.imp (⟨·, hready⟩) fun ⟨hreqSync, hack, hpopCnt⟩ => ⟨hreqSync, hack, hackSync, hpopCnt⟩

/-- A move that domain B makes only out of reset. -/
theorem ConsumerMove.consistent {s t : State} (h : s.Consistent) (hmove : ConsumerMove s t)
    (hstill : s.b.ready = false → t = s) : t.Consistent ∧ t.tokenBits = s.tokenBits := by
  cases hready : s.b.ready with
  | false => rw [hstill hready]; exact ⟨h, rfl⟩
  | true =>
    obtain ⟨hframe, hok⟩ := hmove
    simp only [State.besideConsumer, Prod.mk.injEq] at hframe
    obtain ⟨hcfg, hrstN, ha, hreadyB, hreqSync, hack, hcnt⟩ := hframe
    have hbits : t.tokenBits = s.tokenBits := by simp [State.tokenBits, hreqSync, hack, ha]
    have hframes : t.frameOutstanding = s.frameOutstanding := by simp [State.frameOutstanding, hack, ha]
    refine ⟨h.of_domainB hready ⟨hcfg, hrstN, ha, hreadyB⟩ hok (State.handshake_congr hbits ▸ h.phase) ?_ ?_, hbits⟩
    · rw [hreqSync, hack, hcnt]
      exact h.uncrossed.imp (·.1) fun ⟨hreqSync, hack, _, hpopCnt⟩ => ⟨hreqSync, hack, hpopCnt⟩
    · rw [hcnt, ha, hframes]
      exact h.counters

theorem popTest_move {s : State} (h : s.Consistent) (hpos : s.b.pos = .pop) (hwait : s.b.waitToken = false) :
    ConsumerMove s s.popTest := by
  obtain ⟨hbusy, hop, hfresh, -⟩ := (DomainB.engineOk_pop hpos).mp h.consumer
  by_cases hpending : s.b.tokenPending = true
  · rw [show s.popTest = s.setPosB .popCopy from if_pos hpending]
    exact ⟨rfl, (DomainB.engineOk_popCopy rfl).mpr ⟨hbusy, hop, hfresh, hwait, hpending⟩⟩
  · rw [show s.popTest = { s with b := { s.b with waitToken := true } } from if_neg hpending]
    exact ⟨rfl, (DomainB.engineOk_pop (by exact hpos)).mpr
      ⟨hbusy, hop, hfresh, fun _ => Bool.eq_false_iff.mpr hpending⟩⟩

/-- Every step of the consumer engine but the one that sends the release. -/
theorem consumerStep_move {s : State} (h : s.Consistent) (hpos : s.b.pos ≠ .popRelease) :
    ConsumerMove s (consumerStep s) := by
  cases hpos' : s.b.pos with
  | idle => rw [consumerStep_idle hpos']; exact .refl h
  | pop =>
    cases hwait : s.b.waitToken with
    | true => rw [consumerStep_pop_held hpos' hwait]; exact .refl h
    | false => rw [consumerStep_pop hpos' hwait]; exact popTest_move h hpos' hwait
  | popCopy =>
    rw [consumerStep_popCopy hpos']
    exact ⟨rfl, (DomainB.engineOk_popRelease rfl).mpr ((DomainB.engineOk_popCopy hpos').mp h.consumer)⟩
  | popRelease => exact absurd hpos' hpos

/-- An accepted POP finds the engine idle and FRESH 0, an accepted SWAP finds it idle. -/
theorem EffectB.move {s t : State} {i : Instr} (h : s.Consistent) (heffect : EffectB s i t) : ConsumerMove s t := by
  cases heffect with
  | registers => exact ⟨rfl, h.consumer⟩
  | pop hidle hstale =>
    obtain ⟨-, -, hwait⟩ := (DomainB.engineOk_idle (DomainB.pos_idle_of_not_busy h.consumer hidle)).mp h.consumer
    exact ⟨rfl, (DomainB.engineOk_pop rfl).mpr ⟨rfl, rfl, hstale, fun hw => absurd (hwait.symm.trans hw) Bool.false_ne_true⟩⟩
  | swap _ hidle _ =>
    have hpos := DomainB.pos_idle_of_not_busy h.consumer hidle
    exact ⟨rfl, (DomainB.engineOk_idle (by exact hpos)).mpr ((DomainB.engineOk_idle hpos).mp h.consumer)⟩

/-- In reset port B's transactions change nothing: the read data is already 0. -/
theorem exec_still_inResetB {i : Instr} {s t : State} (h : s.Consistent) (hport : portOf i = .b)
    (hready : s.b.ready = false) (hexec : exec i s = .next t) : t = s := by
  have hrdata : s.answerB 0 = s := by
    have hr : s.b.rdata = 0 := by rw [h.b_inReset hready]; rfl
    simp [State.answerB, ← hr]
  rw [exec_inResetB hport hready] at hexec
  cases hexec
  split
  · exact hrdata
  · rfl

theorem exec_consistentB {i : Instr} {s t : State} (h : s.Consistent) (hport : portOf i = .b)
    (hexec : exec i s = .next t) : t.Consistent ∧ t.tokenBits = s.tokenBits :=
  ((exec_effectB hport hexec).move h).consistent h fun hready => exec_still_inResetB h hport hready hexec

theorem clockStepB_consistent {s : State} (h : s.Consistent) :
    (clockStepB s).Consistent ∧ (clockStepB s).tokenBits = s.tokenBits := by
  unfold clockStepB
  split
  · exact ConsumerMove.consistent h ⟨rfl, h.consumer⟩ (by simp_all)
  · exact ⟨h, rfl⟩

end Sys2Proof.Machine
end

section
/-! PROOFS. The steps that change a bit of the handshake (R371), reset, and the statements about every step: the
invariant with the order of the phases, and what changes ACTIVE (R78). -/

namespace Sys2Proof.Machine

/-- What the step of an agent, or of no agent, does to the four bits (R371): it keeps them, is the one step that leaves
the phase, or is the assertion of reset. -/
inductive TokenMove (s t : State) : Option Agent → Prop
  | kept {g : Option Agent} (hbits : t.tokenBits = s.tokenBits) : TokenMove s t g
  | published (hfrom : s.handshake = some .idle) (hto : t.handshake = some .tokenInFlight)
      (hpos : s.a.pos = .publishToggle) (hcnt : t.a.pubCnt = s.a.pubCnt + 1)
      (hbits : t.tokenBits = (!s.a.req, s.b.reqSync, s.b.ack, s.a.ackSync)) : TokenMove s t (some .producerEngine)
  | received (hfrom : s.handshake = some .tokenInFlight) (hto : t.handshake = some .tokenPending)
      (hbits : t.tokenBits = (s.a.req, s.a.req, s.b.ack, s.a.ackSync)) : TokenMove s t (some .reqSynchroniser)
  | popped (hfrom : s.handshake = some .tokenPending) (hto : t.handshake = some .releaseInFlight)
      (hpos : s.b.pos = .popRelease) (hcnt : t.b.popCnt = s.b.popCnt + 1)
      (hbits : t.tokenBits = (s.a.req, s.b.reqSync, !s.b.ack, s.a.ackSync)) : TokenMove s t (some .consumerEngine)
  | released (hfrom : s.handshake = some .releaseInFlight) (hto : t.handshake = some .idle)
      (hbits : t.tokenBits = (s.a.req, s.b.reqSync, s.b.ack, s.b.ack)) : TokenMove s t (some .ackSynchroniser)
  | reset {g : Option Agent} (hrstN : t.rstN = false) (hA : t.a.ready = false) (hB : t.b.ready = false)
      (hbits : t.tokenBits = (false, false, false, false)) : TokenMove s t g

/-- A domain whose engine does not stand idle is out of reset. -/
theorem State.Consistent.a_ready_of_pos {s : State} (h : s.Consistent) (hpos : s.a.pos ≠ .idle) : s.a.ready = true := by
  refine Bool.of_not_eq_false fun hready => hpos ?_
  rw [h.a_inReset hready]
  rfl

/-- While a token pends both domains are out of reset (R482). -/
theorem State.Consistent.ready_of_tokenPending {s : State} (h : s.Consistent) (hpending : s.b.tokenPending = true) :
    s.a.ready = true ∧ s.b.ready = true := by
  rcases h.uncrossed with hboth | ⟨hreqSync, hack, -, -⟩
  · exact hboth
  · simp [DomainB.tokenPending, hreqSync, hack] at hpending

/-- PUBLISH's last step sends the token: from phase (a) to phase (b). -/
theorem publishEnd_consistent {s : State} (h : s.Consistent) (hpos : s.a.pos = .publishToggle) :
    s.publishEnd.Consistent ∧ TokenMove s s.publishEnd (some .producerEngine) := by
  obtain ⟨hwork, hin, hadc, hstaging, hfree⟩ := (DomainA.engineOk_publishToggle hpos).mp h.producer
  obtain ⟨hbusy, -, hen⟩ := (DomainA.atWork_iff ..).mp hwork
  have hready : s.a.ready = true := h.a_ready_of_pos (by simp [hpos])
  have hfrom := h.handshake_of_stagingFree hfree
  have hfrombits := (s.handshake_eq_some_iff .idle).mp hfrom
  obtain ⟨hok, hrunning⟩ := State.finishA_status (p := s.cfg) (ph := .capturing)
    (s := ({ s with a := { s.a with req := !s.a.req, pubCnt := s.a.pubCnt + 1 } }).endPhase .publishing)
    ((DomainA.atWork_iff ..).mpr ⟨hbusy, rfl, hen⟩) h.running hadc hstaging DomainA.mayStart_capturing_of_run
  have hframe : s.publishEnd.besideProducer
      = (s.cfg, s.rstN, s.b, s.a.ready, !s.a.req, s.a.ackSync, s.a.pubCnt + 1) := State.finishA_besideProducer ..
  simp only [State.besideProducer, Prod.mk.injEq] at hframe
  obtain ⟨hcfg, hrstN, hb, hreadyA, hreq, hack, hcnt⟩ := hframe
  have hbits : s.publishEnd.tokenBits = (!s.a.req, s.b.reqSync, s.b.ack, s.a.ackSync) := by
    simp [State.tokenBits, hreq, hb, hack]
  have hto : s.publishEnd.handshake = some .tokenInFlight := by
    rw [State.handshake_eq_some_iff, hbits, hreq]
    simp_all [State.tokenBits, HandshakePhase.bits]
  have hcounters : s.publishEnd.a.pubCnt = s.publishEnd.b.popCnt + (if s.publishEnd.frameOutstanding then 1 else 0) := by
    have hold := h.counters
    simp_all [State.tokenBits, HandshakePhase.bits, State.frameOutstanding]
  exact ⟨h.of_domainA hready ⟨hcfg, hrstN, hb, hreadyA⟩ hok hrunning (by simp [hto]) (.inl hack) hcounters,
    .published hfrom hto hpos hcnt hbits⟩

/-- POP's last step sends the release: from phase (c) to phase (d). -/
theorem popEnd_consistent {s : State} (h : s.Consistent) (hpos : s.b.pos = .popRelease) :
    s.popEnd.Consistent ∧ TokenMove s s.popEnd (some .consumerEngine) := by
  obtain ⟨-, -, -, hwait, hpending⟩ := (DomainB.engineOk_popRelease hpos).mp h.consumer
  obtain ⟨hreadyA, hreadyB⟩ := h.ready_of_tokenPending hpending
  have hfrom := h.handshake_of_tokenPending hpending
  have hfrombits := (s.handshake_eq_some_iff .tokenPending).mp hfrom
  have hto : s.popEnd.handshake = some .releaseInFlight := by
    rw [State.handshake_eq_some_iff]
    simp_all [State.tokenBits, HandshakePhase.bits]
  have hcounters : s.popEnd.a.pubCnt = s.popEnd.b.popCnt + (if s.popEnd.frameOutstanding then 1 else 0) := by
    have hold := h.counters
    simp_all [State.tokenBits, HandshakePhase.bits, State.frameOutstanding]
  exact ⟨h.of_domainB hreadyB ⟨rfl, rfl, rfl, rfl⟩ ((DomainB.engineOk_idle rfl).mpr ⟨rfl, rfl, hwait⟩) (by simp [hto])
      (.inl hreadyA) hcounters,
    .popped hfrom hto hpos rfl rfl⟩

theorem producerStep_consistent {s : State} (h : s.Consistent) :
    (producerStep s).Consistent ∧ TokenMove s (producerStep s) (some .producerEngine) := by
  by_cases hpos : s.a.pos = .publishToggle
  · rw [producerStep_publishToggle hpos]
    exact publishEnd_consistent h hpos
  · have hstill : s.a.ready = false → producerStep s = s := fun hready =>
      producerStep_idle (by rw [h.a_inReset hready]; rfl)
    exact ((producerStep_move h hpos).consistent h hstill).imp id .kept

theorem consumerStep_consistent {s : State} (h : s.Consistent) :
    (consumerStep s).Consistent ∧ TokenMove s (consumerStep s) (some .consumerEngine) := by
  by_cases hpos : s.b.pos = .popRelease
  · rw [consumerStep_popRelease hpos]
    exact popEnd_consistent h hpos
  · have hstill : s.b.ready = false → consumerStep s = s := fun hready =>
      consumerStep_idle (by rw [h.b_inReset hready]; rfl)
    exact ((consumerStep_move h hpos).consistent h hstill).imp id .kept

/-! ## The synchronisers -/

/-- Domain A's status after the acknowledge synchroniser's copy: a wait ends with STAGING_FREE, and a PUBLISH past its test
sees no change. -/
theorem DomainA.engineOk_ackSync {p : Params} {a : DomainA} (h : a.engineOk p = true) {ack : Bool}
    (hfree : a.stagingFree = true → ack = a.req) :
    ({ a with ackSync := ack, waitStaging := a.waitStaging && ack != a.req } : DomainA).engineOk p = true := by
  cases hpos : a.pos with
  | publish =>
    obtain ⟨hwork, hin, hadc, -⟩ := (DomainA.engineOk_publish hpos).mp h
    exact (DomainA.engineOk_publish rfl).mpr
      ⟨hwork, hin, hadc, fun hw => by simp_all [DomainA.stagingFree]⟩
  | publishCopy =>
    obtain ⟨hwork, hin, hadc, hstaging, hfree'⟩ := (DomainA.engineOk_publishCopy hpos).mp h
    exact (DomainA.engineOk_publishCopy rfl).mpr
      ⟨hwork, hin, hadc, by simp [hstaging], by simp [DomainA.stagingFree, hfree hfree']⟩
  | publishToggle =>
    obtain ⟨hwork, hin, hadc, hstaging, hfree'⟩ := (DomainA.engineOk_publishToggle hpos).mp h
    exact (DomainA.engineOk_publishToggle rfl).mpr
      ⟨hwork, hin, hadc, by simp [hstaging], by simp [DomainA.stagingFree, hfree hfree']⟩
  | _ =>
    have hstaging : a.waitStaging = false := by simp_all [DomainA.engineOk]
    simpa [DomainA.engineOk, DomainA.atWork, DomainA.inCapture, DomainA.inEdge, DomainA.inProcessing,
      DomainA.inPublish, hpos, hstaging] using h

/-- Domain B's status after the request synchroniser's copy: a wait ends with TOKEN_PENDING, and a POP past its test sees
no change. -/
theorem DomainB.engineOk_reqSync {b : DomainB} (h : b.engineOk = true) {req : Bool}
    (hpending : b.tokenPending = true → req = b.reqSync) :
    ({ b with reqSync := req, waitToken := b.waitToken && req == b.ack } : DomainB).engineOk = true := by
  cases hpos : b.pos with
  | idle =>
    obtain ⟨hbusy, hop, hwait⟩ := (DomainB.engineOk_idle hpos).mp h
    exact (DomainB.engineOk_idle rfl).mpr ⟨hbusy, hop, by simp [hwait]⟩
  | pop =>
    obtain ⟨hbusy, hop, hfresh, -⟩ := (DomainB.engineOk_pop hpos).mp h
    exact (DomainB.engineOk_pop rfl).mpr ⟨hbusy, hop, hfresh, fun hw => by simp_all [DomainB.tokenPending]⟩
  | popCopy =>
    obtain ⟨hbusy, hop, hfresh, hwait, hp⟩ := (DomainB.engineOk_popCopy hpos).mp h
    exact (DomainB.engineOk_popCopy rfl).mpr ⟨hbusy, hop, hfresh, by simp [hwait], by rw [hpending hp]; exact hp⟩
  | popRelease =>
    obtain ⟨hbusy, hop, hfresh, hwait, hp⟩ := (DomainB.engineOk_popRelease hpos).mp h
    exact (DomainB.engineOk_popRelease rfl).mpr ⟨hbusy, hop, hfresh, by simp [hwait], by rw [hpending hp]; exact hp⟩

/-- The acknowledge synchroniser's copy: from phase (d) to phase (a), no change of a bit in another phase. -/
theorem ackSyncStep_consistent {s : State} (h : s.Consistent) :
    (ackSyncStep s).Consistent ∧ TokenMove s (ackSyncStep s) (some .ackSynchroniser) := by
  rcases ackSyncStep_cases s with ⟨-, hs⟩ | ⟨hready, hs⟩
  · rw [hs]
    exact ⟨h, .kept rfl⟩
  have hbits : (ackSyncStep s).tokenBits = (s.a.req, s.b.reqSync, s.b.ack, s.b.ack) := by rw [hs]; rfl
  obtain ⟨ph, hfrom⟩ := h.exists_phase
  have hfrombits := (s.handshake_eq_some_iff ph).mp hfrom
  have hmove : (ackSyncStep s).handshake.isSome = true ∧ TokenMove s (ackSyncStep s) (some .ackSynchroniser) := by
    cases ph with
    | releaseInFlight =>
      have hto : (ackSyncStep s).handshake = some .idle := by
        rw [State.handshake_eq_some_iff, hbits, hs]
        simp_all [State.tokenBits, HandshakePhase.bits]
      exact ⟨by simp [hto], .released hfrom hto hbits⟩
    | _ =>
      have hkept : (ackSyncStep s).tokenBits = s.tokenBits := by simp_all [State.tokenBits, HandshakePhase.bits]
      exact ⟨State.handshake_congr hkept ▸ h.phase, .kept hkept⟩
  refine ⟨?_, hmove.2⟩
  have hphase := hmove.1
  rw [hs] at hphase ⊢
  refine h.of_domainA hready ⟨rfl, rfl, rfl, rfl⟩ (DomainA.engineOk_ackSync h.producer fun hfree => ?_) h.running hphase
    (.inr rfl) h.counters
  have := (s.handshake_eq_some_iff .idle).mp (h.handshake_of_stagingFree hfree)
  simp_all [State.tokenBits, HandshakePhase.bits]

/-- The request synchroniser's copy: from phase (b) to phase (c), no change of a bit in another phase. -/
theorem reqSyncStep_consistent {s : State} (h : s.Consistent) :
    (reqSyncStep s).Consistent ∧ TokenMove s (reqSyncStep s) (some .reqSynchroniser) := by
  rcases reqSyncStep_cases s with ⟨-, hs⟩ | ⟨hready, hs⟩
  · rw [hs]
    exact ⟨h, .kept rfl⟩
  have hbits : (reqSyncStep s).tokenBits = (s.a.req, s.a.req, s.b.ack, s.a.ackSync) := by rw [hs]; rfl
  obtain ⟨ph, hfrom⟩ := h.exists_phase
  have hfrombits := (s.handshake_eq_some_iff ph).mp hfrom
  have hmove : (reqSyncStep s).handshake.isSome = true ∧ TokenMove s (reqSyncStep s) (some .reqSynchroniser) := by
    cases ph with
    | tokenInFlight =>
      have hto : (reqSyncStep s).handshake = some .tokenPending := by
        rw [State.handshake_eq_some_iff, hbits, hs]
        simp_all [State.tokenBits, HandshakePhase.bits]
      exact ⟨by simp [hto], .received hfrom hto hbits⟩
    | _ =>
      have hkept : (reqSyncStep s).tokenBits = s.tokenBits := by simp_all [State.tokenBits, HandshakePhase.bits]
      exact ⟨State.handshake_congr hkept ▸ h.phase, .kept hkept⟩
  refine ⟨?_, hmove.2⟩
  have hphase := hmove.1
  rw [hs] at hphase ⊢
  refine h.of_domainB hready ⟨rfl, rfl, rfl, rfl⟩ (DomainB.engineOk_reqSync h.consumer fun hpending => ?_) hphase ?_
    h.counters
  · have := (s.handshake_eq_some_iff .tokenPending).mp (h.handshake_of_tokenPending hpending)
    simp_all [State.tokenBits, HandshakePhase.bits]
  · cases hreadyA : s.a.ready with
    | true => exact .inl rfl
    | false =>
      have hreq : s.a.req = false := by rw [h.a_inReset hreadyA]; rfl
      rcases h.uncrossed with ⟨hboth, -⟩ | ⟨-, hack, -, hpopCnt⟩
      · exact absurd (hreadyA.symm.trans hboth) Bool.false_ne_true
      · exact .inr ⟨hreq, hack, hpopCnt⟩

/-! ## Reset -/

/-- Domain A leaves reset: its registers are those it held in reset, but for READY and MODE. -/
theorem leaveResetA_consistent {s : State} (h : s.Consistent) :
    (leaveResetA s).Consistent ∧ (leaveResetA s).tokenBits = s.tokenBits := by
  unfold leaveResetA
  split
  case isFalse => exact ⟨h, rfl⟩
  case isTrue hleaves =>
    obtain ⟨hrstN, hready⟩ : s.rstN = true ∧ s.a.ready = false := by simpa using hleaves
    have ha := h.a_inReset hready
    have hreq : s.a.req = false := by rw [ha]; rfl
    have hpubCnt : s.a.pubCnt = 0 := by rw [ha]; rfl
    obtain ⟨hreqSync, hack, hackSync, hpopCnt⟩ := h.uncrossed.resolve_left fun hboth => by simp [hready] at hboth
    refine ⟨⟨rfl, rfl, h.consumer, ?_, .inl hrstN, .inl rfl, h.resetB, .inr ⟨hreqSync, hack, rfl, hpopCnt⟩, ?_⟩, ?_⟩
    · simp [State.handshake, DomainA.afterReset, hreqSync, hack]
    · simp [State.frameOutstanding, DomainA.afterReset, hack, hpopCnt]
    · simp [State.tokenBits, DomainA.afterReset, hreq, hackSync]

/-- Domain B leaves reset, likewise; domain A may have sent a token before. -/
theorem leaveResetB_consistent {s : State} (h : s.Consistent) :
    (leaveResetB s).Consistent ∧ (leaveResetB s).tokenBits = s.tokenBits := by
  unfold leaveResetB
  split
  case isFalse => exact ⟨h, rfl⟩
  case isTrue hleaves =>
    obtain ⟨hrstN, hready⟩ : s.rstN = true ∧ s.b.ready = false := by simpa using hleaves
    obtain ⟨hreqSync, hack, hackSync, hpopCnt⟩ := h.uncrossed.resolve_left fun hboth => by simp [hready] at hboth
    have hbits : (DomainB.afterReset (modeOfStrap s.modeStrap)).reqSync = s.b.reqSync
        ∧ (DomainB.afterReset (modeOfStrap s.modeStrap)).ack = s.b.ack
        ∧ (DomainB.afterReset (modeOfStrap s.modeStrap)).popCnt = s.b.popCnt := ⟨hreqSync.symm, hack.symm, hpopCnt.symm⟩
    refine ⟨⟨h.producer, h.running, rfl, ?_, .inl hrstN, h.resetA, .inl rfl, .inr ⟨rfl, rfl, hackSync, rfl⟩, ?_⟩, ?_⟩
    · simpa [State.handshake, hbits] using h.phase
    · simpa [State.frameOutstanding, hbits] using h.counters
    · simp [State.tokenBits, hbits]

/-- Asserting `rst_n` gives both domains the values of R95, whatever they held; releasing it changes no domain. -/
theorem resetPin_consistent {s : State} (level : Bool) (h : s.Consistent) :
    (resetPin level s).Consistent ∧ TokenMove s (resetPin level s) none := by
  cases level with
  | true =>
    exact ⟨⟨h.producer, h.running, h.consumer, h.phase, .inl rfl, h.resetA, h.resetB, h.uncrossed, h.counters⟩, .kept rfl⟩
  | false =>
    exact ⟨⟨rfl, rfl, rfl, rfl, .inr ⟨rfl, rfl⟩, .inr rfl, .inr rfl, .inr ⟨rfl, rfl, rfl, rfl⟩, rfl⟩,
      .reset rfl rfl rfl rfl⟩

/-! ## Every step -/

theorem agentStep_consistent (g : Agent) {s : State} (h : s.Consistent) :
    (agentStep g s).Consistent ∧ TokenMove s (agentStep g s) (some g) := by
  cases g with
  | producerEngine => exact producerStep_consistent h
  | consumerEngine => exact consumerStep_consistent h
  | adcSource => exact (adcTransfer_consistent h).imp id .kept
  | reqSynchroniser => exact reqSyncStep_consistent h
  | ackSynchroniser => exact ackSyncStep_consistent h
  | clockA => exact (clockStepA_consistent h).imp id .kept
  | clockB => exact (clockStepB_consistent h).imp id .kept
  | resetSynchroniserA => exact (leaveResetA_consistent h).imp id .kept
  | resetSynchroniserB => exact (leaveResetB_consistent h).imp id .kept

theorem exec_consistent {i : Instr} {s t : State} (h : s.Consistent) (hexec : exec i s = .next t) :
    t.Consistent ∧ t.tokenBits = s.tokenBits := by
  cases hport : portOf i with
  | a => exact exec_consistentA h hport hexec
  | b => exact exec_consistentB h hport hexec

/-- The invariant does not read the strap, the samples offered, the schedule or the turn. -/
theorem State.Consistent.withEnvironment {s : State} (h : s.Consistent) (strap : Bool) (offered : List Half)
    (es : List Event) (u : Agent) :
    ({ s with modeStrap := strap, adcOffered := offered, sched := es, turn := u } : State).Consistent :=
  ⟨h.producer, h.running, h.consumer, h.phase, h.pin, h.resetA, h.resetB, h.uncrossed, h.counters⟩

/-- One step keeps the invariant, and moves the four bits as its mover may; taking the move off the schedule or passing
the turn on comes first. -/
theorem step_consistent {s t : State} (h : s.Consistent) (hstep : step s = .next t) :
    t.Consistent ∧ ∃ es u, TokenMove { s with sched := es, turn := u } t s.mover := by
  have hmoved : ∀ es u, ({ s with sched := es, turn := u } : State).Consistent :=
    h.withEnvironment s.modeStrap s.adcOffered
  rcases step_cases hstep with ⟨hs, rfl⟩ | ⟨r, es, i, hs, -, hexec⟩ | ⟨g, es, hs, rfl⟩ | ⟨v, es, hs, rfl⟩
    | ⟨level, es, hs, rfl⟩ | ⟨strap, es, hs, rfl⟩
  all_goals simp only [State.mover, hs]
  · exact (agentStep_consistent s.turn (hmoved [] (nextTurn s.turn))).imp id (⟨_, _, ·⟩)
  · exact (exec_consistent (hmoved es s.turn) hexec).imp id fun hbits => ⟨es, s.turn, .kept hbits⟩
  · exact (agentStep_consistent g (hmoved es s.turn)).imp id (⟨_, _, ·⟩)
  · exact ⟨h.withEnvironment s.modeStrap (s.adcOffered ++ [v]) es s.turn, es, s.turn, .kept rfl⟩
  · exact (resetPin_consistent level (hmoved es s.turn)).imp id (⟨_, _, ·⟩)
  · exact ⟨h.withEnvironment strap s.adcOffered es s.turn, es, s.turn, .kept rfl⟩

/-- Settles O39, by the moves of the four bits: each agent's step keeps the invariant, and four of them change one bit. -/
theorem everyStepKeepsTheEnginesAndTheHandshake : Obligations.EveryStepKeepsTheEnginesAndTheHandshake := by
  intro s t hinv hstep
  obtain ⟨hcons, es, u, hmove⟩ := step_consistent ((State.engineInv_iff s).mp hinv) hstep
  refine ⟨(State.engineInv_iff t).mpr hcons, ?_⟩
  generalize s.mover = mover at hmove
  cases hmove with
  | kept hbits => exact .inl (t.tokenBits_eq_iff.mp hbits)
  | published hfrom hto hpos hcnt hbits =>
    exact .inr (.inl ⟨hfrom, hto, rfl, hpos, hcnt, t.tokenBits_eq_iff.mp hbits⟩)
  | received hfrom hto hbits => exact .inr (.inr (.inl ⟨hfrom, hto, rfl, t.tokenBits_eq_iff.mp hbits⟩))
  | popped hfrom hto hpos hcnt hbits =>
    exact .inr (.inr (.inr (.inl ⟨hfrom, hto, rfl, hpos, hcnt, t.tokenBits_eq_iff.mp hbits⟩)))
  | released hfrom hto hbits =>
    exact .inr (.inr (.inr (.inr (.inl ⟨hfrom, hto, rfl, t.tokenBits_eq_iff.mp hbits⟩))))
  | reset hrstN hA hB hbits =>
    exact .inr (.inr (.inr (.inr (.inr ⟨hrstN, hA, hB, t.tokenBits_eq_iff.mp hbits⟩))))

end Sys2Proof.Machine
end

section
/-! PROOFS. What changes ACTIVE (R78, R361). -/

namespace Sys2Proof.Machine

/-! ## Domain A's moves leave domain B alone -/

@[simp] theorem State.finishA_b (s : State) (next : ProducerPos) : (s.finishA next).b = s.b := by
  unfold State.finishA
  split <;> rfl

@[simp] theorem State.startPhase_b (s : State) (ph : Phase) : (s.startPhase ph).b = s.b := by cases ph <;> rfl

@[simp] theorem State.captureEnd_b (s : State) : s.captureEnd.b = s.b := by
  unfold State.captureEnd
  simp only
  split <;> rfl

@[simp] theorem State.edgeEnd_b (s : State) (cnt : Word) : (s.edgeEnd cnt).b = s.b := by simp [State.edgeEnd]

@[simp] theorem State.publishTest_b (s : State) : s.publishTest.b = s.b := by
  unfold State.publishTest
  split <;> rfl

@[simp] theorem State.publishEnd_b (s : State) : s.publishEnd.b = s.b := by simp [State.publishEnd]

@[simp] theorem State.processBody_b (s : State) : s.processBody.b = s.b := by
  unfold State.processBody
  split <;> rfl

@[simp] theorem State.processEnd_b (s : State) : s.processEnd.b = s.b := by simp [State.processEnd]

@[simp] theorem State.takeSample_b (s : State) (v : Half) : (s.takeSample v).b = s.b := by
  unfold State.takeSample
  split <;> rfl

theorem producerStep_b (s : State) : (producerStep s).b = s.b := by
  cases hpos : s.a.pos with
  | idle => rw [producerStep_idle hpos]
  | starting ph => rw [producerStep_starting hpos, State.startPhase_b]
  | capture _ | edgeFirst | edgeScan _ _ | edgeFill _ _ | publish =>
    simp only [producerStep, hpos]
    split_ifs <;> simp
  | body => rw [producerStep_body hpos, State.processEnd_b]
  | publishCopy => rw [producerStep_publishCopy hpos, State.publishCopy_b]
  | publishToggle => rw [producerStep_publishToggle hpos, State.publishEnd_b]

theorem adcTransfer_b (s : State) : (adcTransfer s).b = s.b := by
  unfold adcTransfer
  split
  · rfl
  · split
    · rw [State.takeSample_b]
    · rfl

/-! ## ACTIVE -/

theorem consumerStep_active (s : State) : (consumerStep s).b.active = s.b.active := by
  cases hpos : s.b.pos with
  | idle => rw [consumerStep_idle hpos]
  | pop =>
    simp only [consumerStep, hpos, State.popTest]
    split_ifs <;> rfl
  | popCopy => rw [consumerStep_popCopy hpos]; rfl
  | popRelease => rw [consumerStep_popRelease hpos]; rfl

/-- No agent's step changes ACTIVE but domain B's reset synchroniser, as the domain leaves reset. -/
theorem agentStep_active (g : Agent) (s : State) :
    (agentStep g s).b.active = s.b.active ∨ (s.b.ready = false ∧ (agentStep g s).b.ready = true) := by
  cases g with
  | producerEngine => exact .inl (congrArg DomainB.active (producerStep_b s))
  | consumerEngine => exact .inl (consumerStep_active s)
  | adcSource => exact .inl (congrArg DomainB.active (adcTransfer_b s))
  | reqSynchroniser =>
    left
    rcases reqSyncStep_cases s with ⟨-, hs⟩ | ⟨-, hs⟩ <;> simp only [agentStep, hs]
  | ackSynchroniser =>
    left
    rcases ackSyncStep_cases s with ⟨-, hs⟩ | ⟨-, hs⟩ <;> simp only [agentStep, hs]
  | clockA => left; simp only [agentStep, clockStepA]; split <;> rfl
  | clockB => left; simp only [agentStep, clockStepB]; split <;> rfl
  | resetSynchroniserA =>
    left
    rcases leaveResetA_cases s with hs | ⟨-, -, -, hb⟩
    · exact congrArg (·.b.active) hs
    · exact congrArg DomainB.active hb
  | resetSynchroniserB =>
    rcases leaveResetB_cases s with hs | ⟨hready, -, -, hb⟩
    · exact .inl (congrArg (·.b.active) hs)
    · exact .inr ⟨hready, congrArg DomainB.ready hb⟩

/-- No instruction changes ACTIVE but an accepted SWAP, which finds FRESH 1 and the engine idle. -/
theorem exec_active {i : Instr} {s t : State} (h : exec i s = .next t) (hactive : t.b.active ≠ s.b.active) :
    (i = .bSwap ∨ i = .bWriteCmdB 0x02) ∧ s.b.fresh = true ∧ s.b.busy = false
      ∧ t.b = { s.b with active := !s.b.active, fresh := false } := by
  rcases exec_effect h with hA | hB
  · cases hA <;> exact absurd rfl hactive
  · cases hB with
    | swap hi hidle hfresh => exact ⟨hi, hfresh, hidle, rfl⟩
    | _ => exact absurd rfl hactive

/-- A transaction decodes to an instruction of its port, and to no command. -/
theorem decodeTransaction_port (p : Port) (tw : BitVec 13) (data : Word) :
    portOf (decodeTransaction p tw data) = p ∧ decodeTransaction p tw data ≠ .bSwap := by
  cases p <;> simp only [decodeTransaction, decodeTransactionA, decodeTransactionB] <;> split <;> split_ifs <;>
    exact ⟨rfl, nofun⟩

theorem decodeRequest_port {r : Request} {i : Instr} (h : decodeRequest r = .ok i) :
    portOf i = r.port ∧ i ≠ .bSwap := by
  unfold decodeRequest at h
  split at h
  · cases h
    exact decodeTransaction_port ..
  · cases h

/-- Settles O45, by what an instruction and an agent's step do to ACTIVE. -/
theorem activeChangesOnlyBySwap : Obligations.ActiveChangesOnlyBySwap := by
  intro s t h hactive
  rcases step_cases h with ⟨-, rfl⟩ | ⟨r, es, i, hs, hdecode, hexec⟩ | ⟨g, es, -, rfl⟩ | ⟨v, es, -, rfl⟩
    | ⟨level, es, -, rfl⟩ | ⟨level, es, -, rfl⟩
  · exact .inr (.inr ((agentStep_active s.turn { s with turn := nextTurn s.turn }).resolve_left hactive))
  · obtain ⟨hi, hfresh, hidle, hb⟩ := exec_active hexec hactive
    obtain ⟨hport, hcommand⟩ := decodeRequest_port hdecode
    obtain rfl := hi.resolve_left hcommand
    exact .inl ⟨r, es, hs, hport.symm, hdecode, hfresh, hidle, hb⟩
  · exact .inr (.inr ((agentStep_active g { s with sched := es }).resolve_left hactive))
  · exact absurd rfl hactive
  · cases level with
    | true => exact absurd rfl hactive
    | false => exact .inr (.inl ⟨rfl, rfl⟩)
  · exact absurd rfl hactive

end Sys2Proof.Machine
end

section
/-! PROOFS. The words of the read-only registers: their fields side by side (R61, R63, R64, R73). -/

namespace Sys2Proof.Machine

/-! ## Fields side by side -/

/-- The word `x` is the number `n` in its low `k` bits. -/
def Packs (x : Word) (k n : Nat) : Prop := x.toNat = n ∧ n < 2 ^ k

/-- A status bit is a field of one bit. -/
theorem bitAt_eq_fieldAt (b : Bool) (k : Nat) : bitAt b k = fieldAt (BitVec.ofBool b) k := rfl

theorem fieldAt_toNat {w j : Nat} (v : BitVec w) (hw : j + w ≤ 32) : (fieldAt v j).toNat = 2 ^ j * v.toNat := by
  have hlt : 2 ^ j * v.toNat < 2 ^ 32 :=
    calc 2 ^ j * v.toNat < 2 ^ j * 2 ^ w := Nat.mul_lt_mul_of_pos_left v.isLt (Nat.two_pow_pos j)
      _ = 2 ^ (j + w) := (pow_add 2 j w).symm
      _ ≤ 2 ^ 32 := Nat.pow_le_pow_right (by decide) hw
  have hv : v.toNat < 2 ^ 32 := lt_of_lt_of_le v.isLt (Nat.pow_le_pow_right (by decide) (by omega))
  rw [fieldAt, BitVec.toNat_shiftLeft, BitVec.toNat_setWidth, Nat.mod_eq_of_lt hv, Nat.shiftLeft_eq, Nat.mul_comm,
    Nat.mod_eq_of_lt hlt]

/-- A field above the bits in use adds its value at its place. -/
theorem Packs.field {x : Word} {k n w : Nat} (h : Packs x k n) (v : BitVec w) (j : Nat) (hk : k ≤ j := by decide)
    (hw : j + w ≤ 32 := by decide) : Packs (x ||| fieldAt v j) (j + w) (n + 2 ^ j * v.toNat) := by
  obtain ⟨rfl, hn⟩ := h
  have hlt : x.toNat < 2 ^ j := lt_of_lt_of_le hn (Nat.pow_le_pow_right (by decide) hk)
  constructor
  · rw [BitVec.toNat_or, fieldAt_toNat v hw, Nat.or_comm, ← Nat.two_pow_add_eq_or_of_lt hlt, Nat.add_comm]
  · calc x.toNat + 2 ^ j * v.toNat < 2 ^ j * (v.toNat + 1) := by rw [Nat.mul_succ]; omega
      _ ≤ 2 ^ j * 2 ^ w := Nat.mul_le_mul_left _ v.isLt
      _ = 2 ^ (j + w) := (pow_add 2 j w).symm

theorem Packs.bit {x : Word} {k n : Nat} (h : Packs x k n) (b : Bool) (j : Nat) (hk : k ≤ j := by decide)
    (hw : j + 1 ≤ 32 := by decide) : Packs (x ||| bitAt b j) (j + 1) (n + 2 ^ j * b.toNat) := by
  simpa [bitAt_eq_fieldAt] using h.field (BitVec.ofBool b) j hk hw

/-- The lowest field of a word. -/
theorem packs_field {w : Nat} (v : BitVec w) (hw : 0 + w ≤ 32 := by decide) : Packs (fieldAt v 0) (0 + w) v.toNat := by
  have h := fieldAt_toNat v hw
  exact ⟨by simpa using h, by simpa using v.isLt⟩

theorem packs_bit (b : Bool) : Packs (bitAt b 0) 1 b.toNat := by
  simpa [bitAt_eq_fieldAt] using packs_field (BitVec.ofBool b)

/-! ## The status and error words -/

theorem modeBit_toNat (m : Mode) : (modeBit m).toNat = (match m with | .spectrum => 0 | .oscilloscope => 1) := by
  cases m <;> rfl

theorem phaseCode_toNat (ph : Phase) :
    ph.code.toNat = (match ph with | .idle => 0 | .capturing => 1 | .processing => 2 | .publishing => 3) := by
  cases ph <;> rfl

theorem statusA_packs (a : DomainA) : Packs (statusA a) 24
    (a.ready.toNat + 2 ^ 1 * a.busy.toNat + 2 ^ 2 * a.running.toNat + 2 ^ 3 * a.waitAdc.toNat
      + 2 ^ 4 * a.waitStaging.toNat + 2 ^ 5 * a.stagingFree.toNat + 2 ^ 6 * a.err.isError.toNat
      + 2 ^ 8 * (modeBit a.mode).toNat + 2 ^ 9 * a.phase.code.toNat + 2 ^ 16 * a.op.toNat) :=
  (packs_bit a.ready).bit a.busy 1 |>.bit a.running 2 |>.bit a.waitAdc 3 |>.bit a.waitStaging 4 |>.bit a.stagingFree 5
    |>.bit a.err.isError 6 |>.bit (modeBit a.mode) 8 |>.field a.phase.code 9 |>.field a.op 16

theorem statusB_packs (b : DomainB) : Packs (statusB b) 24
    (b.ready.toNat + 2 ^ 1 * b.busy.toNat + 2 ^ 2 * b.waitToken.toNat + 2 ^ 3 * b.tokenPending.toNat
      + 2 ^ 4 * b.fresh.toNat + 2 ^ 5 * b.active.toNat + 2 ^ 6 * b.err.isError.toNat
      + 2 ^ 8 * (modeBit b.mode).toNat + 2 ^ 16 * b.op.toNat) :=
  (packs_bit b.ready).bit b.busy 1 |>.bit b.waitToken 2 |>.bit b.tokenPending 3 |>.bit b.fresh 4 |>.bit b.active 5
    |>.bit b.err.isError 6 |>.bit (modeBit b.mode) 8 |>.field b.op 16

theorem errorWord_packs (e : ErrorRecord) :
    Packs e.word 16 (e.code.toNat + 2 ^ 7 * e.multi.toNat + 2 ^ 8 * e.opc.toNat) :=
  (packs_field e.code).bit e.multi 7 |>.field e.opc 8

/-- Settles O32, by the fields of each word side by side. -/
theorem statusWordsHoldTheirFields : Obligations.StatusWordsHoldTheirFields := by
  refine ⟨fun a => ?_, fun b => ?_, fun e => (errorWord_packs e).1⟩
  · rw [(statusA_packs a).1, modeBit_toNat, phaseCode_toNat]
    rfl
  · rw [(statusB_packs b).1, modeBit_toNat]
    rfl

/-! ## The configuration words -/

/-- FRAME_LEN (R13). -/
theorem frameLen_eq (p : Params) (m : Mode) :
    p.frameLen m = (match m with | .spectrum => 2 ^ p.log2Fft / 2 | .oscilloscope => p.oscSamples) := by
  cases m <;> rfl

section
variable {p : Params}

theorem fftSize_le (h : p.valid = true) : 2 ^ p.log2Fft ≤ 32768 := by
  have hlog : p.log2Fft ≤ 15 := by simp [params_valid_iff] at h; omega
  exact Nat.pow_le_pow_right (n := 2) (by decide) hlog

theorem frameLen_lt (h : p.valid = true) (m : Mode) : p.frameLen m < 65536 := by
  have hfft := fftSize_le h
  rw [params_valid_iff] at h
  cases m with
  | spectrum => simp only [frameLen_eq]; omega
  | oscilloscope => simp only [frameLen_eq]; omega

theorem cfg0_toNat (h : p.valid = true) (m : Mode) :
    (cfg0 p m).toNat = p.adcBits + 2 ^ 8 * (modeBit m).toNat + 2 ^ 12 * p.q15Shift + 2 ^ 16 * p.log2Fft
      + 2 ^ 24 * p.dbEpsExp := by
  have hpacks := (packs_field (BitVec.ofNat 5 p.adcBits)).bit (modeBit m) 8 |>.field (BitVec.ofNat 4 p.q15Shift) 12
    |>.field (BitVec.ofNat 4 p.log2Fft) 16 |>.field (BitVec.ofNat 4 p.dbEpsExp) 24
  rw [params_valid_iff] at h
  rw [cfg0, hpacks.1]
  simp only [BitVec.toNat_ofNat]
  omega

/-- Two 16-bit fields. -/
theorem halves_toNat {lo hi : Nat} (hlo : lo < 65536) (hhi : hi < 65536) :
    (fieldAt (BitVec.ofNat 16 lo) 0 ||| fieldAt (BitVec.ofNat 16 hi) 16).toNat = lo + 65536 * hi := by
  rw [((packs_field (BitVec.ofNat 16 lo)).field (BitVec.ofNat 16 hi) 16).1]
  simp only [BitVec.toNat_ofNat]
  omega

theorem cfg1_toNat (h : p.valid = true) : (cfg1 p).toNat = p.rawSamples + 65536 * p.decimateN := by
  rw [params_valid_iff] at h
  exact halves_toNat (by omega) (by omega)

theorem cfg2_toNat (h : p.valid = true) : (cfg2 p).toNat = 2 ^ p.log2Fft + 65536 * p.oscSamples := by
  have hfft := fftSize_le h
  rw [params_valid_iff] at h
  exact halves_toNat (by simp only [Params.downsampled, Params.fftSize]; omega) (by omega)

theorem cfg3_toNat (h : p.valid = true) : (cfg3 p).toNat = p.alphaQ15 + 65536 * p.frameRate := by
  rw [params_valid_iff] at h
  exact halves_toNat (by omega) (by omega)

theorem cfg4_toNat (p : Params) : (cfg4 p).toNat = (p.dbMin % 65536).toNat + 65536 * (p.dbMax % 65536).toNat := by
  rw [cfg4, ((packs_field (u16 p.dbMin)).field (u16 p.dbMax) 16).1]
  simp only [u16, BitVec.toNat_ofInt]
  rfl

theorem cfg5_toNat (h : p.valid = true) (m : Mode) : (cfg5 p m).toNat = p.syncStages + 65536 * p.frameLen m := by
  have hlen := frameLen_lt h m
  rw [params_valid_iff] at h
  rw [cfg5, ((packs_field (BitVec.ofNat 8 p.syncStages)).field (BitVec.ofNat 16 (p.frameLen m)) 16).1]
  simp only [BitVec.toNat_ofNat]
  omega

theorem cfgB_toNat (h : p.valid = true) (m : Mode) :
    (cfgB p m).toNat = p.syncStages + 2 ^ 8 * (modeBit m).toNat + 65536 * p.frameLen m := by
  have hlen := frameLen_lt h m
  have hpacks := (packs_field (BitVec.ofNat 8 p.syncStages)).bit (modeBit m) 8
    |>.field (BitVec.ofNat 16 (p.frameLen m)) 16
  rw [params_valid_iff] at h
  rw [cfgB, hpacks.1]
  simp only [BitVec.toNat_ofNat]
  omega

end

/-- A read of a register of port A that is no window and no diagnostic counter answers its word. -/
theorem execReadOtherA_register {s : State} (hready : s.a.ready = true) {off : BitVec 10} (hoff : off ≠ offData)
    (hdiag : diagRegisterA s.a (byteOffset off) = none) :
    exec (.aReadOther off) s = .next (s.answerA (registerA s.cfg s.a (byteOffset off))) := by
  simp [exec, execReadOtherA, State.readRegisterA, hready, hoff, hdiag]

/-- A read of a register of port B, likewise. -/
theorem execReadOtherB_register {s : State} (hready : s.b.ready = true) {off : BitVec 10} (hoff : off ≠ offData)
    (hdiag : diagRegisterB s.b (byteOffset off) = none) :
    exec (.bReadOther off) s = .next (s.answerB (registerB s.cfg s.b (byteOffset off))) := by
  simp [exec, execReadOtherB, State.readRegisterB, hready, hoff, hdiag]

/-- Settles O33, by what a read of a register answers and the fields of each word. -/
theorem configurationWordsHoldTheParameters : Obligations.ConfigurationWordsHoldTheParameters := by
  intro s k v hvalid hreadyA hreadyB hk
  refine ⟨?_, rfl, cfgB s.cfg s.b.mode, execReadOtherB_register hreadyB (by decide) rfl,
    (cfgB_toNat hvalid _).trans (by cases s.b.mode <;> rfl)⟩
  match k, hk with
  | 0, _ =>
    exact ⟨cfg0 s.cfg s.a.mode, execReadOtherA_register hreadyA (by decide) rfl,
      (cfg0_toNat hvalid _).trans (by cases s.a.mode <;> rfl)⟩
  | 1, _ => exact ⟨cfg1 s.cfg, execReadOtherA_register hreadyA (by decide) rfl, cfg1_toNat hvalid⟩
  | 2, _ => exact ⟨cfg2 s.cfg, execReadOtherA_register hreadyA (by decide) rfl, cfg2_toNat hvalid⟩
  | 3, _ => exact ⟨cfg3 s.cfg, execReadOtherA_register hreadyA (by decide) rfl, cfg3_toNat hvalid⟩
  | 4, _ => exact ⟨cfg4 s.cfg, execReadOtherA_register hreadyA (by decide) rfl, cfg4_toNat s.cfg⟩
  | 5, _ =>
    exact ⟨cfg5 s.cfg s.a.mode, execReadOtherA_register hreadyA (by decide) rfl,
      (cfg5_toNat hvalid _).trans (by cases s.a.mode <;> rfl)⟩

end Sys2Proof.Machine
end

section
/-! PROOFS. The state right after reset (R95, R480, R481, R485). -/

namespace Sys2Proof.Machine

theorem zeroFrom_replicate (n len : Nat) : zeroFrom n (List.replicate len 0#16) = true := by
  simp [zeroFrom]

theorem initial_consistent (p : Params) (strap : Bool) : (State.initial p strap).Consistent :=
  ⟨rfl, rfl, rfl, rfl, .inl rfl, .inl rfl, .inl rfl, .inl ⟨rfl, rfl⟩, rfl⟩

theorem initial_tailsZero (p : Params) (strap : Bool) : (State.initial p strap).tailsZero = true := by
  simp [State.tailsZero, State.initial, Memory.resetA, Memory.resetB, zeroFrom_replicate]

/-- The defaults of R12 are in their ranges, whatever the two OPEN values are. -/
theorem defaultParams_valid : defaultParams.valid = true := by
  have halpha := Config.alphaQ15.isLt
  have hrate := Config.frameRateLess1.isLt
  rw [params_valid_iff]
  simp only [defaultParams]
  omega

/-- Settles O41, by the values of R95. -/
theorem theInvariantsHoldAfterReset : Obligations.TheInvariantsHoldAfterReset := by
  refine ⟨fun p strap hvalid => ⟨resetMemory_wf p, (State.engineInv_iff _).mpr (initial_consistent p strap), rfl, rfl, ?_,
    initial_tailsZero p strap⟩, defaultParams_valid, rfl⟩
  have hrate : 0 < p.frameRate := by rw [params_valid_iff] at hvalid; omega
  exact decide_eq_true hrate

/-- A run whose first move drives `rst_n`. -/
theorem run_resetPin {s : State} {level : Bool} {es : List Event} (h : s.sched = .resetPin level :: es) (n : Nat) :
    Host.Core.run Sys2Proof.core (n + 1) s
      = Host.Core.run Sys2Proof.core n (resetPin level { s with sched := es }) := by
  simp [Host.Core.run, Sys2Proof.core, step, h, runEvent]

/-- Settles O50, by running the four moves. -/
theorem resetFromAnyStateGivesTheResetValues : Obligations.ResetFromAnyStateGivesTheResetValues := by
  intro s es hs
  refine ⟨leaveResetB (leaveResetA (resetPin true (resetPin false { s with sched := es }))), ?_,
    rfl, rfl, rfl, rfl, rfl, rfl, rfl, rfl⟩
  rw [run_resetPin hs, run_resetPin rfl, run_agent rfl, run_agent rfl]
  rfl

theorem ErrorRecord.none_word : ErrorRecord.none.word = 0 := by decide

/-- Settles O51, by the values of R95. -/
theorem registersReadTheirResetValues : Obligations.RegistersReadTheirResetValues := by
  intro p strap
  have hstatusA : statusA (DomainA.afterReset (modeOfStrap strap)) = (if strap = true then 0x121 else 0x021) := by
    cases strap <;> decide
  have hstatusB : statusB (DomainB.afterReset (modeOfStrap strap)) = (if strap = true then 0x101 else 0x001) := by
    cases strap <;> decide
  have hzero16 : fieldAt (0 : BitVec 16) 0 = 0 := by decide
  have hzero4 : fieldAt (0 : BitVec 4) 0 = 0 := by decide
  have hzero2 : fieldAt (0 : BitVec 2) 0 = 0 := by decide
  refine ⟨hstatusA, hstatusB, rfl, ?_, ?_, rfl, rfl, rfl, rfl, rfl, rfl, rfl, rfl, rfl, rfl⟩
  · simp only [List.forall_mem_cons]
    exact ⟨ErrorRecord.none_word, hzero16, rfl, hzero16, rfl, hzero4, hzero16, nofun⟩
  · simp only [List.forall_mem_cons]
    exact ⟨ErrorRecord.none_word, rfl, hzero2, hzero16, nofun⟩

end Sys2Proof.Machine
end

section
/-! PROOFS. One step on a transaction: the decoded instruction runs (R128, R140), no step faults (R440), and only an
access of another size than 4 bytes is refused (R126). -/

namespace Sys2Proof.Machine

/-! ## Every instruction answers a next state -/

theorem execWriteCmdA_total (w : Word) (s : State) : ∃ t, execWriteCmdA w s = .next t := by
  unfold execWriteCmdA
  split <;> exact ⟨_, rfl⟩

theorem execWriteCmdB_total (w : Word) (s : State) : ∃ t, execWriteCmdB w s = .next t := by
  unfold execWriteCmdB
  split <;> exact ⟨_, rfl⟩

/-- No instruction faults and none is refused, in any state (R440). -/
theorem exec_total (i : Instr) (s : State) : ∃ t, exec i s = .next t := by
  cases i with
  | aWriteCmdA w => exact execWriteCmdA_total w s
  | bWriteCmdB w => exact execWriteCmdB_total w s
  | _ => exact ⟨_, rfl⟩

/-! ## A transaction as the next move -/

theorem decodeRequest_of_size {r : Request} (h : r.size = 4) :
    decodeRequest r = .ok (decodeTransaction r.port r.tw r.data) := if_pos h

theorem decodeRequest_of_foreign_size {r : Request} (h : r.size ≠ 4) :
    decodeRequest r = .error (.accessSize r.size) := if_neg h

theorem step_of_sched_cons {s : State} {e : Event} {es : List Event} (h : s.sched = e :: es) :
    step s = runEvent e { s with sched := es } := by
  simp only [step, h]

/-- A transaction that decodes: its instruction's meaning, with the move taken off the schedule. -/
theorem step_of_decodeRequest {s : State} {r : Request} {es : List Event} {i : Instr}
    (hsched : s.sched = .request r :: es) (hdecode : decodeRequest r = .ok i) :
    step s = exec i { s with sched := es } := by
  rw [step_of_sched_cons hsched]
  simp only [runEvent, runRequest, hdecode]

/-- A transaction of another size than 4 bytes: the refusal names that size (R126). -/
theorem step_of_foreign_size {s : State} {r : Request} {es : List Event}
    (hsched : s.sched = .request r :: es) (hsize : r.size ≠ 4) :
    step s = .refused (.accessSize r.size) := by
  rw [step_of_sched_cons hsched]
  simp only [runEvent, runRequest, decodeRequest_of_foreign_size hsize]

/-- Settles O5, by the step on a transaction that decodes. -/
theorem stepRunsTheDecodedInstruction : Obligations.StepRunsTheDecodedInstruction :=
  fun _ _ _ _ hsched hdecode => step_of_decodeRequest hsched hdecode

/-- Settles O7, by cases on the next move: only a transaction can be refused, and one of 4 bytes decodes to an
instruction, which answers a next state. -/
theorem stepStopsOnlyAtForeignAccessSizes : Obligations.StepStopsOnlyAtForeignAccessSizes := by
  intro s
  cases hsched : s.sched with
  | nil =>
    left
    simp only [step, hsched]
    exact ⟨_, rfl⟩
  | cons e es =>
    cases e with
    | request r =>
      by_cases hsize : r.size = 4
      · left
        rw [step_of_decodeRequest hsched (decodeRequest_of_size hsize)]
        exact exec_total _ _
      · exact .inr ⟨r, es, rfl, hsize, step_of_foreign_size hsched hsize⟩
    | agent _ | offer _ | resetPin _ | strap _ => exact .inl ⟨_, step_of_sched_cons hsched⟩

end Sys2Proof.Machine
end

section
/-! PROOFS. Encoding: command words by the opcode map (R161 to R165), transaction words by their fields (R171, R46),
both as bytes (log 20), and the step on a write of a command register (R160). -/

namespace Sys2Proof.Machine

/-! ## Command words -/

/-- The commands of a port in the order of their opcodes, from 0x00 (R163, R164). -/
def commandsOf : Port → List Instr
  | .a => [.aNopA, .aCapture, .aFilter, .aWindow, .aFft, .aPower, .aDbconv, .aSpectrum, .aEdge, .aPublish, .aRun]
  | .b => [.bNopB, .bPop, .bSwap]

/-- The opcode map of each port lists its commands, and has nothing above them. -/
theorem opcode_eq_getElem? (p : Port) (op : BitVec 8) : opcode p op = (commandsOf p)[op.toNat]? := by
  cases p with
  | a =>
    show opcodeA op = _
    unfold opcodeA
    split
    case h_12 => exact (List.getElem?_eq_none (by simp_all [commandsOf]; omega)).symm
    all_goals next hop => rw [hop]; rfl
  | b =>
    show opcodeB op = _
    unfold opcodeB
    split
    case h_4 => exact (List.getElem?_eq_none (by simp_all [commandsOf]; omega)).symm
    all_goals next hop => rw [hop]; rfl

/-- Each command's words are its opcode's command word on its port (R161). -/
theorem encode_commandsOf (p : Port) :
    ∀ k (hk : k < (commandsOf p).length), encode (commandsOf p)[k] = .command p (commandWord (BitVec.ofNat 8 k)) := by
  cases p <;> decide

theorem encode_of_opcode {p : Port} {op : BitVec 8} {i : Instr} (h : opcode p op = some i) :
    encode i = .command p (commandWord op) := by
  rw [opcode_eq_getElem?] at h
  obtain ⟨hk, rfl⟩ := List.getElem?_eq_some_iff.mp h
  rw [encode_commandsOf p _ hk, BitVec.ofNat_toNat, BitVec.setWidth_eq]

theorem opcField_toNat (w : Word) : (opcField w).toNat = w.toNat % 256 := by
  simp [opcField]

theorem rsvdField_eq_zero_iff (w : Word) : rsvdField w = 0 ↔ w.toNat / 256 = 0 := by
  have hw := w.isLt
  rw [← BitVec.toNat_inj]
  simp [rsvdField, Nat.shiftRight_eq_div_pow]
  omega

/-- A word whose RSVD is 0 is the command word of its OPC (R161). -/
theorem commandWord_opcField {w : Word} (h : rsvdField w = 0) : commandWord (opcField w) = w := by
  rw [rsvdField_eq_zero_iff] at h
  apply BitVec.eq_of_toNat_eq
  simp only [commandWord, BitVec.toNat_setWidth, opcField_toNat]
  omega

/-- R165: a word decodes to a command exactly when its RSVD is 0 and its OPC is that command's opcode. -/
theorem decodeCommand_eq_ok_iff {p : Port} {w : Word} {i : Instr} :
    decodeCommand p w = .ok i ↔ rsvdField w = 0 ∧ opcode p (opcField w) = some i := by
  unfold decodeCommand
  by_cases hrsvd : rsvdField w = 0
  · cases opcode p (opcField w) <;> simp [hrsvd]
  · rw [if_pos (bne_iff_ne.mpr hrsvd)]
    exact ⟨nofun, fun h => absurd h.1 hrsvd⟩

theorem encode_of_decodeCommand {p : Port} {w : Word} {i : Instr} (h : decodeCommand p w = .ok i) :
    encode i = .command p w := by
  obtain ⟨hrsvd, hop⟩ := decodeCommand_eq_ok_iff.mp h
  rw [encode_of_opcode hop, commandWord_opcField hrsvd]

/-- R165 in numbers: the command word decodes by its two fields, to a command of the port or to ILLEGAL. The value
`d` stands beyond the list and is never taken. -/
theorem decodeCommand_eq_ite (p : Port) (w : Word) (d : Instr) :
    decodeCommand p w =
      if w.toNat / 256 ≠ 0 then .error (.illegalCommand w)
      else if w.toNat % 256 < (commandsOf p).length then .ok ((commandsOf p).getD (w.toNat % 256) d)
      else .error (.illegalCommand w) := by
  unfold decodeCommand
  rw [opcode_eq_getElem?, opcField_toNat]
  by_cases hrsvd : w.toNat / 256 = 0
  · by_cases hop : w.toNat % 256 < (commandsOf p).length
    · simp [(rsvdField_eq_zero_iff w).mpr hrsvd, hrsvd, hop]
    · simp [(rsvdField_eq_zero_iff w).mpr hrsvd, hrsvd, hop]
  · rw [if_pos (bne_iff_ne.mpr (mt (rsvdField_eq_zero_iff w).mp hrsvd)), if_pos hrsvd]

/-- Settles O2, by the opcode map read as the list of the port's commands. -/
theorem commandDecodingIsTheOpcodeMap : Obligations.CommandDecodingIsTheOpcodeMap := by
  intro w
  refine ⟨?portA, ?portB, fun p i h => encode_of_decodeCommand h⟩
  case portA =>
    rw [decodeCommand_eq_ite .a w .aNopA]
    simp only [commandsOf, List.length, Nat.lt_succ_iff]
  case portB =>
    rw [decodeCommand_eq_ite .b w .bNopB]
    simp only [commandsOf, List.length, Nat.lt_succ_iff]

/-! ## Transaction words -/

theorem writeEnable_eq (tw : BitVec 13) : tw.getLsbD 12 = decide (0x1000 ≤ tw.toNat) := by
  have htw := tw.isLt
  rw [BitVec.getLsbD, Nat.testBit_eq_decide_div_mod_eq, decide_eq_decide]
  omega

theorem offset_toNat (tw : BitVec 13) : (tw.extractLsb' 2 10).toNat = tw.toNat / 4 % 0x400 := by
  simp [Nat.shiftRight_eq_div_pow]

theorem append_toNat {m n : Nat} (x : BitVec m) (y : BitVec n) : (x ++ y).toNat = x.toNat * 2 ^ n + y.toNat := by
  rw [BitVec.toNat_append, ← Nat.shiftLeft_add_eq_or_of_lt y.isLt, Nat.shiftLeft_eq]

theorem transactionWord_toNat (we : Bool) (off : BitVec 10) :
    (transactionWord we off).toNat = we.toNat * 0x1000 + off.toNat * 4 := by
  simp only [transactionWord, append_toNat, BitVec.toNat_ofBool]
  rw [show (0 : BitVec 2).toNat = 0 from rfl]
  omega

theorem transactionWord_writeEnable (we : Bool) (off : BitVec 10) : (transactionWord we off).getLsbD 12 = we := by
  have hoff := off.isLt
  rw [writeEnable_eq, transactionWord_toNat]
  cases we with
  | false => exact decide_eq_false (by simp only [Bool.toNat_false]; omega)
  | true => exact decide_eq_true (by simp only [Bool.toNat_true]; omega)

theorem transactionWord_offset (we : Bool) (off : BitVec 10) : (transactionWord we off).extractLsb' 2 10 = off := by
  have hoff := off.isLt
  apply BitVec.eq_of_toNat_eq
  rw [offset_toNat, transactionWord_toNat]
  omega

/-- The word of a transaction word's own fields is that word with address bits 1:0 zero (R46). -/
theorem transactionWord_fields (tw : BitVec 13) :
    transactionWord (tw.getLsbD 12) (tw.extractLsb' 2 10) = BitVec.ofNat 13 (tw.toNat / 4 * 4) := by
  have htw := tw.isLt
  apply BitVec.eq_of_toNat_eq
  rw [transactionWord_toNat, offset_toNat, writeEnable_eq, BitVec.toNat_ofNat]
  by_cases hwe : 0x1000 ≤ tw.toNat
  · simp only [hwe, decide_true, Bool.toNat_true]
    omega
  · simp only [hwe, decide_false, Bool.toNat_false]
    omega

theorem decodeTransaction_transactionWord_a (we : Bool) (off : BitVec 10) (data : Word) :
    decodeTransaction .a (transactionWord we off) data = decodeTransactionA we off data := by
  simp only [decodeTransaction, transactionWord_writeEnable, transactionWord_offset]

theorem decodeTransaction_transactionWord_b (we : Bool) (off : BitVec 10) (data : Word) :
    decodeTransaction .b (transactionWord we off) data = decodeTransactionB we off data := by
  simp only [decodeTransaction, transactionWord_writeEnable, transactionWord_offset]

/-- R46: only the write enable and the word offset of a transaction word are decoded. -/
theorem decodeTransaction_congr {tw tw' : BitVec 13} (h : tw'.toNat / 4 = tw.toNat / 4) (p : Port) (data : Word) :
    decodeTransaction p tw' data = decodeTransaction p tw data := by
  have hwe : tw'.getLsbD 12 = tw.getLsbD 12 := by
    rw [writeEnable_eq, writeEnable_eq, decide_eq_decide]
    omega
  have hoff : tw'.extractLsb' 2 10 = tw.extractLsb' 2 10 := by
    apply BitVec.eq_of_toNat_eq
    rw [offset_toNat, offset_toNat, h]
  simp only [decodeTransaction, hwe, hoff]

/-- R171, port A: what a write enable and an offset decode to is well formed and has them as its words. -/
theorem decodeTransactionA_spec (we : Bool) (off : BitVec 10) (data : Word) :
    (decodeTransactionA we off data).wellFormed = true
    ∧ encode (decodeTransactionA we off data)
        = .transaction .a (transactionWord we off) (if we then data else 0) := by
  cases we with
  | false =>
    simp only [decodeTransactionA]
    split_ifs <;> simp_all [Instr.wellFormed, encode]
  | true =>
    simp only [decodeTransactionA]
    split_ifs <;> simp_all [Instr.wellFormed, encode]

/-- R171, port B, where no row takes a write of RD_DATA (R414). -/
theorem decodeTransactionB_spec (we : Bool) (off : BitVec 10) (data : Word) :
    (decodeTransactionB we off data).wellFormed = true
    ∧ encode (decodeTransactionB we off data)
        = .transaction .b (transactionWord we off) (if we then data else 0) := by
  cases we with
  | false =>
    simp only [decodeTransactionB]
    split_ifs <;> simp_all [Instr.wellFormed, encode]
  | true =>
    simp only [decodeTransactionB]
    split_ifs <;> simp_all [Instr.wellFormed, encode]

/-- Settles O3, by the fields of the transaction word. -/
theorem transactionDecodingIgnoresLowAddressBits : Obligations.TransactionDecodingIgnoresLowAddressBits := by
  intro p tw data
  have hspec : (decodeTransaction p tw data).wellFormed = true
      ∧ encode (decodeTransaction p tw data)
        = .transaction p (transactionWord (tw.getLsbD 12) (tw.extractLsb' 2 10))
          (if tw.getLsbD 12 then data else 0) := by
    cases p with
    | a => exact decodeTransactionA_spec ..
    | b => exact decodeTransactionB_spec ..
  obtain ⟨hwf, hencode⟩ := hspec
  refine ⟨hwf, (decodeTransaction_port p tw data).1, fun tw' h => decodeTransaction_congr h p data, ?_⟩
  rw [hencode, transactionWord_fields, writeEnable_eq]
  by_cases hread : tw.toNat < 0x1000 <;> simp [hread]

/-! ## Bytes -/

theorem bytesLE_length (n w : Nat) : (bytesLE n w).length = n := by
  simp [bytesLE]

theorem bytesLE_succ (n w : Nat) : bytesLE (n + 1) w = byteOf w 0 :: bytesLE n (w / 256) := by
  simp [bytesLE, List.range_succ_eq_map, byteOf, Nat.div_div_eq_div_mul, Nat.pow_succ, Nat.mul_comm]

/-- Bytes enough for a value give it back. -/
theorem ofBytesLE_bytesLE {n w : Nat} (h : w < 256 ^ n) : ofBytesLE (bytesLE n w) = w := by
  induction n generalizing w with
  | zero => simp_all [bytesLE, ofBytesLE]
  | succ n ih =>
    have hrest : w / 256 < 256 ^ n := Nat.div_lt_of_lt_mul (by rwa [← Nat.pow_succ'])
    rw [bytesLE_succ, ofBytesLE, ih hrest]
    simp only [byteOf, BitVec.toNat_ofNat]
    omega

theorem ofBytesLE_word (w : Word) : ofBytesLE (bytesLE 4 w.toNat) = w.toNat := ofBytesLE_bytesLE w.isLt

/-- Decoding the bytes of an encoding is decoding the encoding (R124, log 20). -/
theorem decodeBytes_bytes (e : Encoding) : decodeBytes e.port e.bytes = decode e := by
  cases e with
  | command p w =>
    simp [decodeBytes, decode, Encoding.bytes, Encoding.port, bytesLE_length, ofBytesLE_word]
  | transaction p tw data =>
    have htw : ofBytesLE (bytesLE 2 tw.toNat) = tw.toNat := ofBytesLE_bytesLE (by omega)
    have hfirst := List.take_left' (l₂ := bytesLE 4 data.toNat) (bytesLE_length 2 tw.toNat)
    have hrest := List.drop_left' (l₂ := bytesLE 4 data.toNat) (bytesLE_length 2 tw.toNat)
    simp [decodeBytes, decode, Encoding.bytes, Encoding.port, bytesLE_length, hfirst, hrest, htw, ofBytesLE_word,
      tw.isLt]

/-! ## Decoding the encoding -/

/-- R161, R171: the words of a well-formed instruction decode to it. Only the `other` rows can be ill formed. -/
theorem decode_encode {i : Instr} (h : i.wellFormed = true) : decode (encode i) = .ok i := by
  cases i with
  | aReadOther off | aWriteOther off v =>
    simp_all [Instr.wellFormed, encode, decode, decodeTransaction_transactionWord_a, decodeTransactionA]
  | bReadOther off | bWriteOther off v =>
    simp_all [Instr.wellFormed, encode, decode, decodeTransaction_transactionWord_b, decodeTransactionB]
  | _ => rfl

/-- Settles O1, by decoding the words, which decoding the bytes comes to. -/
theorem decodingInvertsEncoding : Obligations.DecodingInvertsEncoding := by
  intro i h
  rw [decodeBytes_bytes]
  exact ⟨decode_encode h, decode_encode h⟩

/-- Settles O4: each sample is a closed word, which the decoder evaluates. -/
theorem sampleWordsDecode : Obligations.SampleWordsDecode := by
  unfold Obligations.SampleWordsDecode
  decide

/-! ## A write of a command register -/

/-- A write of a port's command register whose word is a command's runs that command (R160). -/
theorem exec_write_of_encode {p : Port} {w : Word} {i : Instr} (h : encode i = .command p w) (s : State) :
    exec (decodeTransaction p (transactionWord true offCmd) w) s = exec i s := by
  cases i <;> cases h <;> rfl

theorem Request.tw_toNat (r : Request) : r.tw.toNat = r.write.toNat * 0x1000 + r.addr.toNat := by
  simp only [Request.tw, append_toNat, BitVec.toNat_ofBool, Nat.reducePow]

/-- R46: a write at an address that ignores to 0x020 has the fields of the command register's transaction word. -/
theorem decodeTransaction_tw_command {r : Request} (hwrite : r.write = true) (haddr : r.addr.toNat / 4 * 4 = 0x020)
    (p : Port) (data : Word) :
    decodeTransaction p r.tw data = decodeTransaction p (transactionWord true offCmd) data := by
  refine decodeTransaction_congr ?_ p data
  rw [Request.tw_toNat, transactionWord_toNat, hwrite]
  simp [offCmd]
  omega

/-- Settles O6: the transaction decodes to a write of the port's command register, and that runs the command whose word
it carries. -/
theorem stepRunsTheIssuedCommand : Obligations.StepRunsTheIssuedCommand := by
  intro s r es i hsched hsize hwrite haddr hcommand
  rw [step_of_decodeRequest hsched (decodeRequest_of_size hsize), decodeTransaction_tw_command hwrite haddr]
  exact exec_write_of_encode (encode_of_decodeCommand hcommand) _

end Sys2Proof.Machine
end

section
/-! PROOFS. The arithmetic of the filter and the window (R20, R206, R207, R240): saturation and the shift as `min`,
`max` and division, and the bounds of what is computed with them (R210, R211, R246). -/

namespace Sys2Proof.Machine

/-! ## Saturation and the shift -/

theorem sat16_eq (v : Int) : sat16 v = max (-32768) (min 32767 v) := by
  unfold sat16 clamp
  omega

theorem sat16_of_inRange {v : Int} (hlo : -32768 ≤ v) (hhi : v ≤ 32767) : sat16 v = v := by
  rw [sat16_eq]
  omega

theorem sat16_bounds (v : Int) : -32768 ≤ sat16 v ∧ sat16 v ≤ 32767 := by
  rw [sat16_eq]
  omega

theorem asr_eq_ediv (v : Int) (k : Nat) : asr v k = v / 2 ^ k := by
  simpa [asr] using Int.shiftRight_eq_div_pow v k

theorem s16_bounds (b : Half) : -32768 ≤ s16 b ∧ s16 b ≤ 32767 := by
  unfold s16
  have hlo := b.le_toInt
  have hhi := b.toInt_lt
  omega

/-- The 16-bit pattern of an integer in the signed range reads back as that integer. -/
theorem u16_toInt {v : Int} (hlo : -32768 ≤ v) (hhi : v ≤ 32767) : (u16 v).toInt = v :=
  BitVec.toInt_ofInt_eq_self (by decide) hlo (by omega)

/-! ## The IIR (R207, R210, R211) -/

/-- A sum of two values of an interval, weighted by parts of `2^15`, is in the interval scaled by `2^15`. -/
theorem weightedSum_bounds {lo hi c y a : Int} (ha0 : 0 ≤ a) (ha : a ≤ 32768) (hc : lo ≤ c ∧ c ≤ hi)
    (hy : lo ≤ y ∧ y ≤ hi) :
    lo * 32768 ≤ c * a + y * (32768 - a) ∧ c * a + y * (32768 - a) ≤ hi * 32768 := by
  have hb0 : 0 ≤ 32768 - a := by omega
  have hclo := Int.mul_le_mul_of_nonneg_right hc.1 ha0
  have hchi := Int.mul_le_mul_of_nonneg_right hc.2 ha0
  have hylo := Int.mul_le_mul_of_nonneg_right hy.1 hb0
  have hyhi := Int.mul_le_mul_of_nonneg_right hy.2 hb0
  constructor <;> linarith

theorem centre_bounds (p : Params) (r : Half) : -32768 ≤ centre p r ∧ centre p r ≤ 32767 := sat16_bounds _

theorem iirStep_bounds (p : Params) (prev : Int) (r : Half) :
    -32768 ≤ iirStep p prev r ∧ iirStep p prev r ≤ 32767 :=
  sat16_bounds _

/-- R211: at coefficient 32768 the output is the centred sample. -/
theorem iirStep_pass {p : Params} (h : p.alphaQ15 = 32768) (prev : Int) (r : Half) : iirStep p prev r = centre p r := by
  obtain ⟨hlo, hhi⟩ := centre_bounds p r
  have hshift : asr (centre p r * p.alphaQ15 + prev * (32768 - p.alphaQ15)) 15 = centre p r := by
    rw [asr_eq_ediv, h]
    omega
  rw [iirStep, hshift, sat16_of_inRange hlo hhi]

/-- R211: at coefficient 0 an output of 0 is followed by 0. -/
theorem iirStep_stop {p : Params} (h : p.alphaQ15 = 0) (r : Half) : iirStep p 0 r = 0 := by
  simp [iirStep, h, asr_eq_ediv, sat16_eq]

/-! ## The window (R240, R246) -/

theorem hann_bounds (p : Params) (n : Nat) : 0 ≤ hann p n ∧ hann p n ≤ 32767 := by
  unfold hann clamp
  omega

/-- R246: a 16-bit sample times a table value, shifted, needs no saturation. -/
theorem windowProduct_bounds {f h : Int} (hf : -32768 ≤ f ∧ f ≤ 32767) (hh : 0 ≤ h ∧ h ≤ 32767) :
    -32767 ≤ asr (f * h) 15 ∧ asr (f * h) 15 ≤ 32766 := by
  have hlo : -32768 * 32767 ≤ f * h := by nlinarith
  have hhi : f * h ≤ 32767 * 32767 := by nlinarith
  rw [asr_eq_ediv]
  omega

/-- Settles O59: the weighted sum stays in the scaled interval, so its shift is in range; the extreme coefficients and
the window's product by their lemmas. -/
theorem filterAndWindowBounds : Obligations.FilterAndWindowBounds := by
  refine ⟨fun c y alpha halpha hclo hchi hylo hyhi => ?_, fun p prev r => ⟨fun h => iirStep_pass h prev r,
    fun h => iirStep_stop h r⟩, fun p n f => windowProduct_bounds (s16_bounds f) (hann_bounds p n)⟩
  obtain ⟨hlo, hhi⟩ := weightedSum_bounds (a := alpha) (by omega) (by omega) ⟨hclo, hchi⟩ ⟨hylo, hyhi⟩
  refine ⟨by omega, by omega, sat16_of_inRange ?_ ?_⟩ <;> rw [asr_eq_ediv] <;> omega

end Sys2Proof.Machine
end

section
/-! PROOFS. A command of one PROCESSING phase run to its end (R325, R326), and FILTER: the outputs of the one-pole IIR
(R207), decimated (R208), then zeros (R209). -/

namespace Sys2Proof.Machine

/-! ## The commands of one PROCESSING phase -/

/-- The state in which the body of a PROCESSING command runs: accepted (R325), its phase begun (R326). -/
def State.inBody (s : State) (op : BitVec 8) : State :=
  ((s.acceptA op .processing).beginPhase .processing).setPos .body

/-- The engine reaches the body by one step from acceptance. -/
theorem producerStep_accepted_processing (s : State) (op : BitVec 8) :
    producerStep (s.acceptA op .processing) = s.inBody op :=
  producerStep_starting (s := s.acceptA op .processing) rfl

/-- A PROCESSING command whose body writes the buffers `mem` and the length `n` and nothing else completes with these
written and the marks of one phase. -/
theorem producerCompletes_processing {s : State} {op : BitVec 8} {mem : Memory} {n : BitVec 16} (hop : op ≠ opRun)
    (hbody : (s.inBody op).processBody =
      { s.inBody op with a := { (s.inBody op).a with filtLen := n }, mem := mem }) :
    producerCompletes (s.acceptA op .processing)
      { s with a := { s.a.processed with filtLen := n }, mem := mem } := by
  refine ⟨rfl, 2, ?_⟩
  have hend : producerStep (s.inBody op) = (s.inBody op).processEnd := producerStep_body rfl
  rw [producerSteps_succ, producerStep_accepted_processing, producerSteps_succ, hend, producerSteps_zero,
    State.processEnd, hbody, State.finishA_command hop]
  rfl

/-! ## The outputs of the IIR -/

/-- One output of the IIR with saturation and shift written out. -/
theorem iirStep_eq (p : Params) (prev : Int) (r : Half) :
    iirStep p prev r =
      max (-32768) (min 32767
        ((max (-32768) (min 32767 (((r.toNat : Int) - 2 ^ (p.adcBits - 1)) * 2 ^ p.q15Shift)) * p.alphaQ15
          + prev * (32768 - p.alphaQ15)) / 32768)) := by
  simp only [iirStep, centre, sat16_eq, asr_eq_ediv, Params.adcMid, Nat.cast_pow, Nat.cast_ofNat, Int.reducePow]

/-- Any sequence that satisfies the recurrence on the samples from `prev` on lists the IIR's outputs. -/
theorem iirOutputs_getD {p : Params} {raw : List Half} {prev : Int} {y : Nat → Int}
    (hy : ∀ i, i < raw.length → y i = iirStep p (if i = 0 then prev else y (i - 1)) (elem raw i)) :
    ∀ i, i < raw.length → (iirOutputs p prev raw).getD i 0 = y i := by
  induction raw generalizing prev y with
  | nil => simp
  | cons r rs ih =>
    have hfirst : y 0 = iirStep p prev r := hy 0 (by simp)
    have hrest : ∀ i, i < rs.length →
        y (i + 1) = iirStep p (if i = 0 then iirStep p prev r else y (i - 1 + 1)) (elem rs i) := by
      intro i hi
      have h := hy (i + 1) (by simpa using hi)
      cases i with
      | zero => simpa [elem, hfirst] using h
      | succ i => simpa [elem] using h
    intro i hi
    cases i with
    | zero => exact hfirst.symm
    | succ i => exact ih (y := fun i => y (i + 1)) hrest i (by simpa using hi)

/-! ## FILT after FILTER -/

theorem elem_take {xs : List Half} {n i : Nat} (h : i < n) : elem (xs.take n) i = elem xs i := by
  simp [elem, h]

/-- The last sample of a kept group is one of the first `RAW_SAMPLES` (R208, R209). -/
theorem groupEnd_lt {p : Params} {j : Nat} (hn : 1 ≤ p.decimateN) (hj : j < filterLength p) :
    j * p.decimateN + p.decimateN - 1 < p.rawSamples := by
  have hgroup : j + 1 ≤ p.rawSamples / p.decimateN := by
    unfold filterLength at hj
    omega
  have hfit := (Nat.le_div_iff_mul_le hn).mp hgroup
  rw [Nat.add_mul] at hfit
  omega

theorem filterLength_le (p : Params) : filterLength p ≤ p.downsampled := Nat.min_le_left ..

/-- R208: below `L`, FILT holds the last output of each group. -/
theorem filterBuffer_elem_lt {p : Params} {raw : List Half} {y : Nat → Int} (hn : 1 ≤ p.decimateN)
    (hlen : p.rawSamples ≤ raw.length) (hy : ∀ i, y i = iirStep p (if i = 0 then 0 else y (i - 1)) (elem raw i))
    {j : Nat} (hj : j < filterLength p) :
    (elem (filterBuffer p raw) j).toInt = y (j * p.decimateN + p.decimateN - 1) := by
  have hlt := groupEnd_lt hn hj
  have htake : (raw.take p.rawSamples).length = p.rawSamples := List.length_take_of_le hlen
  have hout : (iirOutputs p 0 (raw.take p.rawSamples)).getD (j * p.decimateN + p.decimateN - 1) 0
      = y (j * p.decimateN + p.decimateN - 1) :=
    iirOutputs_getD (fun i hi => by rw [elem_take (htake ▸ hi)]; exact hy i) _ (htake.symm ▸ hlt)
  rw [filterBuffer, elem_map_range _ (Nat.lt_of_lt_of_le hj (filterLength_le p)), if_pos hj, hout, hy]
  exact u16_toInt (iirStep_bounds ..).1 (iirStep_bounds ..).2

/-- R209: from `L` on, FILT holds 0. -/
theorem filterBuffer_elem_ge {p : Params} {j : Nat} (hj : filterLength p ≤ j) (raw : List Half) :
    elem (filterBuffer p raw) j = 0 := by
  by_cases hin : j < p.downsampled
  · rw [filterBuffer, elem_map_range _ hin, if_neg (Nat.not_lt.mpr hj)]
  · exact elem_of_length_le (by simpa using hin)

/-- Settles O9: FILTER's body is `filterBody`, the engine completes it as any PROCESSING command, and FILT is read
below and from `L` on. -/
theorem filterEmitsTheDecimatedIir : Obligations.FilterEmitsTheDecimatedIir := by
  intro s y hvalid hraw hready hbusy hmode hy
  have hfft := fftSize_le hvalid
  obtain ⟨-, -, -, -, -, -, hn, -⟩ := (params_valid_iff s.cfg).mp hvalid
  refine ⟨s.acceptA 0x02 .processing, _, ?_, producerCompletes_processing (n := BitVec.ofNat 16 (filterLength s.cfg))
    (mem := { s.mem with filt := filterBuffer s.cfg s.mem.raw }) (by decide) rfl, rfl, ?_,
    filterBuffer_length .., fun j hj => filterBuffer_elem_lt hn ?_ ?_ hj, fun j hj => filterBuffer_elem_ge hj _⟩
  · exact congrArg _ (State.issueA_accepts hready hbusy (by simp [hmode, onlySpectrum]) ..)
  · have hle := filterLength_le s.cfg
    exact Nat.mod_eq_of_lt (show filterLength s.cfg < 65536 by unfold Params.downsampled Params.fftSize at hle; omega)
  · exact hraw ▸ Nat.le_max_left ..
  · exact fun i => by rw [iirStep_eq]; exact hy i

end Sys2Proof.Machine
end

section
/-! PROOFS. CAPTURE (R200, R326): the state after each portion of it, the same for every order of the engine's steps,
the ADC source's transfers and the arrivals of samples. -/

namespace Sys2Proof.Machine

/-! ## The states of a capture -/

/-- The state `c` with the samples `xs` on offer. -/
def State.offering (c : State) (xs : List Half) : State := { c with adcOffered := xs }

/-- The capture begun in `c`, with the first `i` of the samples `xs` stored and the others still on offer; `wait` tells
whether the engine is held for the next (R200, R63). -/
def State.capturing (c : State) (xs : List Half) (i : Nat) (wait : Bool) : State :=
  { c with
    a := { c.a with phase := .capturing, tsCap := c.a.cycle, adcEn := true, waitAdc := wait, pos := .capture i }
    mem := { c.mem with raw := xs.take i ++ c.mem.raw.drop i }
    adcOffered := xs.drop i }

/-- The state of CAPTURE issued in `s`, completed with the first `RAW_SAMPLES` of `xs` stored (R200, R325). -/
def State.captured (s : State) (xs : List Half) : State :=
  { s with
    a := { s.a.idled with adcEn := false, tsCap := s.a.cycle }
    mem := { s.mem with raw := xs.take s.cfg.rawSamples ++ s.mem.raw.drop s.cfg.rawSamples }
    adcOffered := xs.drop s.cfg.rawSamples }

/-! ## Its moves -/

/-- The phase begins with no sample taken. -/
theorem producerStep_offering (c : State) (hpos : c.a.pos = .starting .capturing) (hedge : c.a.capturesEdge = false)
    (hwait : c.a.waitAdc = false) (xs : List Half) : producerStep (c.offering xs) = c.capturing xs 0 false := by
  have hstart : producerStep (c.offering xs) = (c.offering xs).startPhase .capturing := producerStep_starting hpos
  rw [hstart, ← hwait]
  simp [State.startPhase, State.offering, State.capturing, State.beginPhase, State.setPos, hedge]

/-- The engine asks for the next sample (R47). -/
theorem producerStep_capturing_lt (c : State) {i : Nat} (hi : i < c.cfg.rawSamples) (xs : List Half) (wait : Bool) :
    producerStep (c.capturing xs i wait) = c.capturing xs i true := by
  cases wait with
  | true => exact producerStep_held rfl (.inl ⟨i, rfl⟩)
  | false => exact producerStep_capture_lt (s := c.capturing xs i false) rfl rfl hi

theorem adcBitsOf_of_lt {p : Params} {v : Half} (h : v.toNat < 2 ^ p.adcBits) : adcBitsOf p v.toNat = v := by
  rw [adcBitsOf, Nat.mod_eq_of_lt h, BitVec.ofNat_toNat, BitVec.setWidth_eq]

/-- Element `i` set in a list that begins with `i` samples: it begins with one more. -/
theorem set_take_append_drop {xs ys : List Half} {i : Nat} (hx : i < xs.length) (hy : i < ys.length) :
    (xs.take i ++ ys.drop i).set i xs[i] = xs.take (i + 1) ++ ys.drop (i + 1) := by
  have hlen : (xs.take i).length = i := List.length_take_of_le hx.le
  rw [List.set_append_right _ _ hlen.le, hlen, Nat.sub_self, List.drop_eq_getElem_cons hy, List.set_cons_zero,
    List.take_succ_eq_append_getElem hx, List.append_assoc, List.singleton_append]

/-- R47, R200: the transfer stores the next sample on offer and ends the hold. -/
theorem adcTransfer_capturing (c : State) {xs : List Half} {i : Nat} (hx : i < xs.length) (hraw : i < c.mem.raw.length)
    (hbits : xs[i].toNat < 2 ^ c.cfg.adcBits) : adcTransfer (c.capturing xs i true) = c.capturing xs (i + 1) false := by
  have hoffered : (c.capturing xs i true).adcOffered = xs[i] :: xs.drop (i + 1) := List.drop_eq_getElem_cons hx
  rw [adcTransfer_ready hoffered rfl, State.takeSample_capture (i := i) rfl]
  simp only [State.capturing, State.storeRaw, State.setPos, adcBitsOf_of_lt hbits, set_take_append_drop hx hraw]

/-- The last step of CAPTURE, all samples being stored (R200, R325). -/
theorem producerStep_capturing_full {s : State} (hwait : s.a.waitAdc = false) (xs : List Half) :
    producerStep ((s.acceptA 0x01 .capturing).capturing xs s.cfg.rawSamples false) = s.captured xs := by
  have hend : producerStep ((s.acceptA 0x01 .capturing).capturing xs s.cfg.rawSamples false) =
      ((s.acceptA 0x01 .capturing).capturing xs s.cfg.rawSamples false).captureEnd :=
    producerStep_capture_ge rfl rfl (Nat.le_refl _)
  rw [hend]
  simp [State.captureEnd, State.endPhase, State.completeA, State.captured, State.capturing, DomainA.idled,
    State.acceptA, opRun, hwait]

/-! ## A run with the samples on offer -/

/-- Rounds of the sampling loop store one sample each. -/
theorem sampleRounds_capturing {c : State} {xs : List Half} (hraw : c.cfg.rawSamples ≤ c.mem.raw.length)
    (hx : c.cfg.rawSamples ≤ xs.length) (hbits : ∀ x ∈ xs.take c.cfg.rawSamples, x.toNat < 2 ^ c.cfg.adcBits)
    (n : Nat) : ∀ i, i + n ≤ c.cfg.rawSamples →
      sampleRounds n (c.capturing xs i false) = c.capturing xs (i + n) false := by
  induction n with
  | zero => exact fun i _ => rfl
  | succ n ih =>
    intro i hi
    have hround : adcTransfer (producerStep (c.capturing xs i false)) = c.capturing xs (i + 1) false := by
      rw [producerStep_capturing_lt c (by omega),
        adcTransfer_capturing c (by omega) (by omega) (hbits _ (List.mem_take_iff_getElem.mpr ⟨i, by omega, rfl⟩))]
    rw [sampleRounds, hround, ih (i + 1) (by omega), Nat.add_right_comm, Nat.add_assoc]

/-! ## Any order of moves -/

/-- Where a CAPTURE issued in `s` can stand after moves of the sampling loop, `xs` being all samples that were on offer
or came: accepted, storing, or completed. -/
inductive CaptureProgress (s : State) (xs : List Half) : State → Prop where
  | accepted : CaptureProgress s xs ((s.acceptA 0x01 .capturing).offering xs)
  | storing (i : Nat) (wait : Bool) (hx : i ≤ xs.length) (hi : i ≤ s.cfg.rawSamples)
      (hwait : wait = true → i < s.cfg.rawSamples) :
      CaptureProgress s xs ((s.acceptA 0x01 .capturing).capturing xs i wait)
  | completed (hx : s.cfg.rawSamples ≤ xs.length) : CaptureProgress s xs (s.captured xs)

section
variable {s u : State} {xs : List Half}

/-- The schedule is no part of the progress. -/
theorem CaptureProgress.withSched (h : CaptureProgress s xs u) (es : List Event) :
    CaptureProgress { s with sched := es } xs { u with sched := es } := by
  cases h with
  | accepted => exact .accepted
  | storing i wait hx hi hwait => exact .storing (s := { s with sched := es }) i wait hx hi hwait
  | completed hx => exact .completed (s := { s with sched := es }) hx

theorem CaptureProgress.sched_eq (h : CaptureProgress s xs u) : u.sched = s.sched := by
  cases h <;> rfl

theorem CaptureProgress.producerStep (h : CaptureProgress s xs u) (hwait : s.a.waitAdc = false) :
    CaptureProgress s xs (producerStep u) := by
  cases h with
  | accepted =>
    rw [producerStep_offering (s.acceptA 0x01 .capturing) rfl rfl hwait]
    exact .storing 0 false (Nat.zero_le _) (Nat.zero_le _) nofun
  | storing i wait hx hi hheld =>
    rcases Nat.lt_or_eq_of_le hi with hlt | rfl
    · rw [producerStep_capturing_lt (s.acceptA 0x01 .capturing) hlt]
      exact .storing i true hx hi fun _ => hlt
    · cases wait with
      | true => exact absurd (hheld rfl) (Nat.lt_irrefl _)
      | false =>
        rw [producerStep_capturing_full hwait]
        exact .completed hx
  | completed hx =>
    rw [producerStep_idle (s := s.captured xs) rfl]
    exact .completed hx

theorem CaptureProgress.adcTransfer (h : CaptureProgress s xs u) (hwait : s.a.waitAdc = false)
    (hraw : s.cfg.rawSamples ≤ s.mem.raw.length) (hbits : ∀ x ∈ xs, x.toNat < 2 ^ s.cfg.adcBits) :
    CaptureProgress s xs (adcTransfer u) := by
  cases h with
  | accepted =>
    rw [adcTransfer_not_ready (s := (s.acceptA 0x01 .capturing).offering xs) hwait]
    exact .accepted
  | storing i wait hx hi hheld =>
    cases wait with
    | false =>
      rw [adcTransfer_not_ready (s := (s.acceptA 0x01 .capturing).capturing xs i false) rfl]
      exact .storing i false hx hi hheld
    | true =>
      have hlt := hheld rfl
      rcases Nat.lt_or_eq_of_le hx with hmore | rfl
      · rw [adcTransfer_capturing (s.acceptA 0x01 .capturing) hmore (Nat.lt_of_lt_of_le hlt hraw)
          (hbits _ (List.getElem_mem hmore))]
        exact .storing (i + 1) false hmore hlt nofun
      · rw [adcTransfer_none (s := (s.acceptA 0x01 .capturing).capturing xs xs.length true) List.drop_length]
        exact .storing xs.length true hx hi hheld
  | completed hx =>
    rw [adcTransfer_not_ready (s := s.captured xs) hwait]
    exact .completed hx

/-- A sample that arrives goes behind those on offer. -/
theorem CaptureProgress.offer (h : CaptureProgress s xs u) (v : Half) :
    CaptureProgress s (xs ++ [v]) { u with adcOffered := u.adcOffered ++ [v] } := by
  cases h with
  | accepted => exact .accepted
  | storing i wait hx hi hwait =>
    have hnext := CaptureProgress.storing (s := s) (xs := xs ++ [v]) i wait (by simp; omega) hi hwait
    rwa [State.capturing, List.take_append_of_le_length hx, List.drop_append_of_le_length hx] at hnext
  | completed hx =>
    have hnext := CaptureProgress.completed (s := s) (xs := xs ++ [v]) (by simp; omega)
    rwa [State.captured, List.take_append_of_le_length hx, List.drop_append_of_le_length hx] at hnext

end

/-- Every run of sampling moves keeps the progress, with the samples that came added to those on offer. -/
theorem CaptureProgress.run {es : List Event} {s u : State} {xs : List Half} (h : CaptureProgress s xs u)
    (hsched : s.sched = es) (hsampling : es.all isSampling = true) (hwait : s.a.waitAdc = false)
    (hraw : s.cfg.rawSamples ≤ s.mem.raw.length)
    (hbits : ∀ x ∈ xs ++ samplesOffered es, x.toNat < 2 ^ s.cfg.adcBits) :
    ∃ t, Host.Core.run Sys2Proof.core es.length u = .next t
      ∧ CaptureProgress { s with sched := [] } (xs ++ samplesOffered es) t := by
  induction es generalizing s u xs with
  | nil =>
    refine ⟨u, rfl, ?_⟩
    have hu : u = { u with sched := [] } := by rw [← hsched, ← h.sched_eq]
    rw [hu]
    simpa using h.withSched []
  | cons e es ih =>
    have hu : u.sched = e :: es := h.sched_eq.trans hsched
    obtain ⟨he, hes⟩ : isSampling e = true ∧ es.all isSampling = true := by simpa using hsampling
    have hnext := h.withSched es
    rcases isSampling_cases he with rfl | rfl | ⟨v, rfl⟩
    · rw [samplesOffered_agent] at hbits ⊢
      rw [List.length_cons, run_agent hu]
      exact ih (s := { s with sched := es }) (hnext.producerStep hwait) rfl hes hwait hraw hbits
    · rw [samplesOffered_agent] at hbits ⊢
      rw [List.length_cons, run_agent hu]
      have hfirst := hnext.adcTransfer hwait hraw fun x hx => hbits x (List.mem_append_left _ hx)
      exact ih (s := { s with sched := es }) hfirst rfl hes hwait hraw hbits
    · rw [samplesOffered_offer, List.append_cons] at hbits ⊢
      rw [List.length_cons, run_offer hu]
      exact ih (s := { s with sched := es }) (hnext.offer v) rfl hes hwait hraw hbits

/-- Until it is completed, OP is CAPTURE's. -/
theorem CaptureProgress.op_of_busy {s u : State} {xs : List Half} (h : CaptureProgress s xs u)
    (hbusy : u.a.busy = true) : u.a.op = 0x01 := by
  cases h with
  | accepted | storing => rfl
  | completed => cases hbusy

/-- With BUSY 0 it is completed. -/
theorem CaptureProgress.captured_of_idle {s u : State} {xs : List Half} (h : CaptureProgress s xs u)
    (hbusy : u.a.busy = false) : s.cfg.rawSamples ≤ xs.length ∧ u = s.captured xs := by
  cases h with
  | accepted | storing => cases hbusy
  | completed hx => exact ⟨hx, rfl⟩

theorem execCapture_accepts {s : State} (hready : s.a.ready = true) (hbusy : s.a.busy = false)
    (hmode : s.a.mode = .spectrum) : exec .aCapture s = .next (s.acceptA 0x01 .capturing) :=
  congrArg _ (State.issueA_accepts hready hbusy (by simp [hmode, onlySpectrum]) ..)

/-- Settles O15: the rounds store the samples on offer one by one, and any other order of the moves makes the progress
that ends, with BUSY 0, in the completed capture. -/
theorem captureStoresTheSamplesInOrder : Obligations.CaptureStoresTheSamplesInOrder := by
  refine ⟨fun s xs rest hready hbusy hwait hmode hraw hoffered hlen hbits => ?_,
    fun s es xs hready hbusy hwait hmode hraw hsampling hxs hbits => ?_⟩
  all_goals have hroom : s.cfg.rawSamples ≤ s.mem.raw.length := hraw ▸ Nat.le_max_left ..
  · have htake : (xs ++ rest).take s.cfg.rawSamples = xs := List.take_left' hlen
    have hdrop : (xs ++ rest).drop s.cfg.rawSamples = rest := List.drop_left' hlen
    have hfirst : producerStep (s.acceptA 0x01 .capturing) =
        (s.acceptA 0x01 .capturing).capturing (xs ++ rest) 0 false :=
      hoffered ▸ producerStep_offering (s.acceptA 0x01 .capturing) rfl rfl hwait s.adcOffered
    have hrounds := sampleRounds_capturing (c := s.acceptA 0x01 .capturing) (xs := xs ++ rest) hroom
      (by simpa using hlen ▸ Nat.le_add_right ..) (by rwa [State.acceptA_cfg, htake]) s.cfg.rawSamples 0 (by simp)
    refine ⟨_, 1, 1, execCapture_accepts hready hbusy hmode, ?_⟩
    simp only [producerSteps_succ, producerSteps_zero, hfirst, hrounds, Nat.zero_add,
      producerStep_capturing_full hwait, State.captured, htake, hdrop]
  · have hstart : CaptureProgress { s with sched := es } s.adcOffered { s.acceptA 0x01 .capturing with sched := es } :=
      .accepted (s := { s with sched := es })
    obtain ⟨t, hrun, hend⟩ := hstart.run rfl hsampling hwait hroom (hxs ▸ hbits)
    rw [← hxs] at hend
    exact ⟨_, t, execCapture_accepts hready hbusy hmode, hrun, hend.op_of_busy, hend.captured_of_idle⟩

end Sys2Proof.Machine
end

section
/-! PROOFS. The commands of the spectrum engine run to their ends: what WINDOW (R245), POWER (R260) and DBCONV (R265)
leave in their buffers, and SPECTRUM beside its four commands (R275, R276). -/

namespace Sys2Proof.Machine

/-! ## A command that writes buffers only -/

/-- The state after a PROCESSING command that wrote the buffers `mem` and nothing else: the marks of one phase. -/
def State.processedWith (s : State) (mem : Memory) : State := { s with a := s.a.processed, mem := mem }

/-- A PROCESSING command whose body writes the buffers `mem` and nothing else, step by step: accepted, then in its
body, then completed for good with these written. -/
theorem producerSteps_buffers {s : State} {op : BitVec 8} {mem : Memory} (hop : op ≠ opRun)
    (hbody : (s.inBody op).processBody = { s.inBody op with mem := mem }) (n : Nat) :
    producerSteps (n + 2) (s.acceptA op .processing) = s.processedWith mem := by
  have hend : producerStep (s.inBody op) = s.processedWith mem := by
    rw [producerStep_body rfl, State.processEnd, hbody, State.finishA_command hop]
    rfl
  rw [producerSteps_succ, producerStep_accepted_processing, producerSteps_succ, hend]
  exact producerSteps_fixed (producerStep_idle rfl) n

/-- A PROCESSING command whose body writes the buffers `mem` and nothing else completes with these written. -/
theorem producerCompletes_buffers {s : State} {op : BitVec 8} {mem : Memory} (hop : op ≠ opRun)
    (hbody : (s.inBody op).processBody = { s.inBody op with mem := mem }) :
    producerCompletes (s.acceptA op .processing) (s.processedWith mem) :=
  ⟨rfl, 2, producerSteps_buffers hop hbody 0⟩

theorem window_completes (s : State) :
    producerCompletes (s.acceptA 0x03 .processing) (s.processedWith s.windowBody.mem) :=
  producerCompletes_buffers (by decide) rfl

theorem fft_completes (s : State) :
    producerCompletes (s.acceptA 0x04 .processing) (s.processedWith s.fftBody.mem) :=
  producerCompletes_buffers (by decide) rfl

theorem power_completes (s : State) :
    producerCompletes (s.acceptA 0x05 .processing) (s.processedWith s.powerBody.mem) :=
  producerCompletes_buffers (by decide) rfl

theorem dbconv_completes (s : State) :
    producerCompletes (s.acceptA 0x06 .processing) (s.processedWith s.dbconvBody.mem) :=
  producerCompletes_buffers (by decide) rfl

theorem spectrum_completes (s : State) :
    producerCompletes (s.acceptA 0x07 .processing) (s.processedWith s.spectrumBody.mem) :=
  producerCompletes_buffers (by decide) rfl

/-! ## Acceptance at the write (R446) -/

section
variable {s : State} (hready : s.a.ready = true) (hbusy : s.a.busy = false) (hmode : s.a.mode = .spectrum)
include hready hbusy hmode

theorem issueA_accepts_spectrum (op : BitVec 8) (accepted : State) : s.issueA op onlySpectrum accepted = accepted :=
  State.issueA_accepts hready hbusy (by simp [hmode, onlySpectrum]) ..

theorem execWindow_accepts : exec .aWindow s = .next (s.acceptA 0x03 .processing) :=
  congrArg _ (issueA_accepts_spectrum hready hbusy hmode ..)

theorem execFft_accepts : exec .aFft s = .next (s.acceptA 0x04 .processing) :=
  congrArg _ (issueA_accepts_spectrum hready hbusy hmode ..)

theorem execPower_accepts : exec .aPower s = .next (s.acceptA 0x05 .processing) :=
  congrArg _ (issueA_accepts_spectrum hready hbusy hmode ..)

theorem execDbconv_accepts : exec .aDbconv s = .next (s.acceptA 0x06 .processing) :=
  congrArg _ (issueA_accepts_spectrum hready hbusy hmode ..)

theorem execSpectrum_accepts : exec .aSpectrum s = .next (s.acceptA 0x07 .processing) :=
  congrArg _ (issueA_accepts_spectrum hready hbusy hmode ..)

end

/-! ## WINDOW, POWER, DBCONV -/

/-- R245, R246: the windowed sample is the shifted product, with nothing lost to its 16 bits. -/
theorem windowed_re (p : Params) (filt : List Half) (n : Nat) :
    (windowed p filt n).re.toInt = (elem filt n).toInt * hann p n / 32768 := by
  obtain ⟨hlo, hhi⟩ := windowProduct_bounds (s16_bounds (elem filt n)) (hann_bounds p n)
  rw [windowed, u16_toInt (by omega) (by omega), asr_eq_ediv]
  rfl

/-- Settles O10: WINDOW completes with `windowBuffer` in WORK, and each element of it by `windowed_re`. -/
theorem windowMultipliesByTheHannTable : Obligations.WindowMultipliesByTheHannTable := by
  intro s hready hbusy hmode
  refine ⟨_, _, execWindow_accepts hready hbusy hmode, window_completes s, rfl, windowBuffer_length ..,
    fun n hn => ?_⟩
  have hvalue : pairElem (windowBuffer s.cfg s.mem.filt) n = windowed s.cfg s.mem.filt n := pairElem_map_range _ hn
  exact ⟨(congrArg (·.re.toInt) hvalue).trans (windowed_re ..), congrArg Pair.im hvalue⟩

/-- R260: the magnitude squared, shifted and saturated. -/
theorem power_eq (x : Pair) : power x = min 32767 ((x.re.toInt ^ 2 + x.im.toInt ^ 2) / 8192) := by
  have hnonneg : 0 ≤ (x.re.toInt ^ 2 + x.im.toInt ^ 2) / 8192 := by positivity
  rw [power, sat16_eq, asr_eq_ediv, s16, s16, ← sq, ← sq]
  omega

/-- R261: no magnitude is negative. -/
theorem power_nonneg (x : Pair) : 0 ≤ power x := by
  rw [power_eq]
  positivity

/-- Each element of MAG after POWER, as a signed value. -/
theorem powerBuffer_elem {p : Params} {k : Nat} (hk : k < p.fftSize) (work : List Pair) :
    (elem (powerBuffer p work) k).toInt = power (pairElem work k) := by
  obtain ⟨hlo, hhi⟩ : -32768 ≤ power (pairElem work k) ∧ power (pairElem work k) ≤ 32767 := sat16_bounds _
  rw [powerBuffer, elem_map_range _ hk, u16_toInt hlo hhi]

/-- Settles O12: POWER completes with `powerBuffer` in MAG, each element of it a `power` in range. -/
theorem powerIsTheSaturatedMagnitudeSquared : Obligations.PowerIsTheSaturatedMagnitudeSquared := by
  intro s hready hbusy hmode
  refine ⟨_, _, execPower_accepts hready hbusy hmode, power_completes s, rfl, powerBuffer_length ..,
    fun k hk => ?_⟩
  have hvalue := powerBuffer_elem hk s.mem.work
  exact ⟨hvalue.trans (power_eq _), (power_nonneg _).trans_eq hvalue.symm⟩

/-- R84: a dB value is between the two clamps, where the parameters are valid. -/
theorem dbfun_bounds {p : Params} (h : p.valid = true) (m : Int) : p.dbMin ≤ dbfun p m ∧ dbfun p m ≤ p.dbMax := by
  have hclamps : p.dbMin ≤ p.dbMax := by simp [params_valid_iff] at h; omega
  unfold dbfun clamp
  omega

/-- Each element of DB after DBCONV, as a signed value: valid clamps are 16-bit values. -/
theorem dbBuffer_elem {p : Params} (h : p.valid = true) {k : Nat} (hk : k < p.bins) (mag : List Half) :
    (elem (dbBuffer p mag) k).toInt = dbfun p (elem mag k).toInt := by
  obtain ⟨hlo, hhi⟩ := dbfun_bounds h (elem mag k).toInt
  have hrange : -32768 ≤ p.dbMin ∧ p.dbMax ≤ 32767 := by simp [params_valid_iff] at h; omega
  rw [dbBuffer, elem_map_range _ hk, s16, u16_toInt (by omega) (by omega)]

/-- Settles O13: DBCONV completes with `dbBuffer` in DB, each element of it a `dbfun` between the clamps. -/
theorem dbconvConvertsEveryBin : Obligations.DbconvConvertsEveryBin := by
  intro s hvalid hready hbusy hmode
  refine ⟨_, _, execDbconv_accepts hready hbusy hmode, dbconv_completes s, rfl, dbBuffer_length ..,
    fun k hk => ?_⟩
  obtain ⟨hlo, hhi⟩ := dbfun_bounds hvalid (elem s.mem.mag k).toInt
  have hvalue := dbBuffer_elem hvalid hk s.mem.mag
  exact ⟨hvalue, hlo.trans_eq hvalue.symm, hvalue.trans_le hhi⟩

/-! ## SPECTRUM -/

/-- Settles O14: the four commands one after another, each completed, leave the buffers of `spectrumBody` and the marks
of a phase at the clock's one time; SPECTRUM's own phase is the one step from its body. -/
theorem spectrumEqualsItsFourCommands : Obligations.SpectrumEqualsItsFourCommands := by
  intro s hready hbusy hmode
  refine ⟨_, _, _, _, _, _, _, _, _, execWindow_accepts hready hbusy hmode, window_completes s,
    execFft_accepts hready rfl hmode, fft_completes _, execPower_accepts hready rfl hmode, power_completes _,
    execDbconv_accepts hready rfl hmode, dbconv_completes _, execSpectrum_accepts hready hbusy hmode,
    spectrum_completes s, ⟨1, 2, by decide, ?_, ?_, ?_, ?_⟩, rfl, rfl, rfl⟩
  · intro n hn
    obtain rfl : n = 0 := by omega
    rfl
  · intro n hb he
    obtain rfl : n = 1 := by omega
    rfl
  · intro n hn
    obtain rfl | rfl : n = 0 ∨ n = 1 := by omega
    · exact ⟨rfl, rfl⟩
    · exact ⟨rfl, rfl⟩
  · intro n hn
    obtain ⟨k, rfl⟩ := Nat.exists_eq_add_of_le' hn
    exact producerSteps_buffers (s := s) (mem := s.spectrumBody.mem) (by decide) rfl k

end Sys2Proof.Machine
end

section
/-! PROOFS. Bit reversal (R251) and FFT (R250, R252): the in-place loops of a stage write disjoint pairs of elements, so
that each stage is its butterflies on the buffer before it. -/

namespace Sys2Proof.Machine

/-! ## Bit reversal (R251) -/

theorem bitrev_lt (b n : Nat) : bitrev b n < 2 ^ b := by
  induction b generalizing n with
  | zero => simp [bitrev]
  | succ b ih =>
    have hlow : n % 2 * 2 ^ b ≤ 1 * 2 ^ b := Nat.mul_le_mul_right _ (by omega)
    have hrest := ih (n / 2)
    rw [bitrev]
    omega

/-- R251: bit `i` of the reversal is bit `B-1-i`. -/
theorem bitrev_testBit {b i : Nat} (n : Nat) (hi : i < b) : (bitrev b n).testBit i = n.testBit (b - 1 - i) := by
  induction b generalizing n i with
  | zero => omega
  | succ b ih =>
    rw [bitrev, Nat.mul_comm, Nat.testBit_two_pow_mul_add _ (bitrev_lt b _)]
    split
    case isTrue hlow =>
      rw [ih _ hlow, Nat.testBit_div_two]
      congr 1
      omega
    case isFalse hhigh =>
      obtain rfl : i = b := by omega
      simp [Nat.testBit_zero]

/-- R251: reversing twice is the identity. -/
theorem bitrev_bitrev {b n : Nat} (hn : n < 2 ^ b) : bitrev b (bitrev b n) = n := by
  refine Nat.eq_of_testBit_eq fun i => ?_
  by_cases hi : i < b
  · rw [bitrev_testBit _ hi, bitrev_testBit _ (by omega)]
    congr 1
    omega
  · have hpow : 2 ^ b ≤ 2 ^ i := Nat.pow_le_pow_right (by decide) (Nat.not_lt.mp hi)
    rw [Nat.testBit_lt_two_pow ((bitrev_lt ..).trans_le hpow), Nat.testBit_lt_two_pow (hn.trans_le hpow)]

theorem bitrev_injOn {b n n' : Nat} (hn : n < 2 ^ b) (hn' : n' < 2 ^ b) (h : bitrev b n = bitrev b n') : n = n' := by
  rw [← bitrev_bitrev hn, h, bitrev_bitrev hn']

/-- Settles O58: the three parts by induction on the number of bits. -/
theorem bitReversalReversesTheBits : Obligations.BitReversalReversesTheBits :=
  fun _ n hn => ⟨bitrev_lt .., fun _ hi => bitrev_testBit n hi, bitrev_bitrev hn⟩

/-! ## The reversed input -/

/-- Elements written through an index that no other element is written through keep what was written. -/
theorem pairElem_foldl_set {r : Nat → Nat} (v : Nat → Pair) {w : List Pair} {n k : Nat}
    (hr : ∀ i j, i < n → j < n → r i = r j → i = j) (hw : ∀ i, i < n → r i < w.length) (hk : k < n) :
    pairElem ((List.range n).foldl (fun w i => w.set (r i) (v i)) w) (r k) = v k := by
  induction n with
  | zero => omega
  | succ n ih =>
    have hlen : ((List.range n).foldl (fun w i => w.set (r i) (v i)) w).length = w.length :=
      foldl_length _ (fun _ _ => List.length_set) _ w
    rw [List.range_succ, List.foldl_append, List.foldl_cons, List.foldl_nil]
    by_cases hkn : k = n
    · subst hkn
      exact pairElem_set_self _ _ (hlen ▸ hw k hk)
    · have hne : r n ≠ r k := fun h => hkn (hr n k (by omega) hk h).symm
      rw [pairElem_set_ne _ _ hne]
      exact ih (fun i j hi hj => hr i j (by omega) (by omega)) (fun i hi => hw i (by omega)) (by omega)

/-- R250, R251: the input of the first stage is WORK in bit-reversed order. -/
theorem pairElem_bitrevBuffer {p : Params} {work : List Pair} (hlen : work.length = p.fftSize) {n : Nat}
    (hn : n < p.fftSize) : pairElem (bitrevBuffer p work) (bitrev p.log2Fft n) = pairElem work n :=
  pairElem_foldl_set (r := bitrev p.log2Fft) _ (fun _ _ hi hj h => bitrev_injOn hi hj h)
    (fun _ _ => hlen ▸ bitrev_lt ..) hn

/-! ## Folds of updates in place -/

/-- An update `f · i` in place of the elements `i` owns, in buffers of length `n`: no other element changes, and what
it writes depends on the elements `i` owns only. -/
structure UpdatesOwned {ι : Type} (owner : Nat → ι) (n : Nat) (f : List Pair → ι → List Pair) (i : ι) : Prop where
  length_eq : ∀ w, (f w i).length = w.length
  frame : ∀ w x, owner x ≠ i → pairElem (f w i) x = pairElem w x
  local_eq : ∀ w w', w.length = n → w'.length = n → (∀ y, owner y = i → pairElem w y = pairElem w' y) →
    ∀ x, owner x = i → pairElem (f w i) x = pairElem (f w' i) x

section
variable {ι : Type} {owner : Nat → ι} {n : Nat} {f : List Pair → ι → List Pair} {is : List ι} {x : Nat}

/-- An element that no update of the list owns is unchanged. -/
theorem pairElem_foldl_of_not_owned (hf : ∀ i ∈ is, UpdatesOwned owner n f i) (hx : owner x ∉ is)
    (w : List Pair) : pairElem (is.foldl f w) x = pairElem w x := by
  induction is generalizing w with
  | nil => rfl
  | cons i is ih =>
    simp only [List.forall_mem_cons] at hf
    simp only [List.mem_cons, not_or] at hx
    rw [List.foldl_cons, ih hf.2 hx.2, hf.1.frame w x hx.1]

/-- An element is what its owner makes of the buffer before the fold, wherever in the fold the owner stands. -/
theorem pairElem_foldl_of_owned (hf : ∀ i ∈ is, UpdatesOwned owner n f i) (hnodup : is.Nodup) (hx : owner x ∈ is)
    {w : List Pair} (hw : w.length = n) : pairElem (is.foldl f w) x = pairElem (f w (owner x)) x := by
  induction is generalizing w with
  | nil => simp at hx
  | cons i is ih =>
    simp only [List.forall_mem_cons] at hf
    obtain ⟨hnot, hnodup⟩ := List.nodup_cons.mp hnodup
    have hlen : (f w i).length = n := (hf.1.length_eq w).trans hw
    rw [List.foldl_cons]
    obtain hi | hin := List.mem_cons.mp hx
    · rw [pairElem_foldl_of_not_owned hf.2 (hi ▸ hnot), hi]
    · have hne : owner x ≠ i := fun h => hnot (h ▸ hin)
      rw [ih hf.2 hnodup hin hlen]
      exact (hf.2 _ hin).local_eq _ _ hlen hw (fun y hy => hf.1.frame w y (hy ▸ hne)) x rfl

end

/-! ## The butterflies of a stage -/

/-- The two outputs of the butterfly of group offset `g`, index `t`, half size `h`, on the elements of `w`. -/
def butterflyOf (p : Params) (m g h t : Nat) (w : List Pair) : Pair × Pair :=
  butterfly (twid p (t * (p.fftSize / m))) (pairElem w (g + t)) (pairElem w (g + t + h))

section
variable {p : Params} {m g h t : Nat} {w : List Pair}

theorem butterflyAt_eq : butterflyAt p m g h t w =
    (w.set (g + t) (butterflyOf p m g h t w).1).set (g + t + h) (butterflyOf p m g h t w).2 := rfl

theorem pairElem_butterflyAt_low (hh : 0 < h) (hlen : g + t + h < w.length) :
    pairElem (butterflyAt p m g h t w) (g + t) = (butterflyOf p m g h t w).1 := by
  rw [butterflyAt_eq, pairElem_set_ne _ _ (by omega), pairElem_set_self _ _ (by omega)]

theorem pairElem_butterflyAt_high (hlen : g + t + h < w.length) :
    pairElem (butterflyAt p m g h t w) (g + t + h) = (butterflyOf p m g h t w).2 := by
  rw [butterflyAt_eq, pairElem_set_self _ _ (by simpa using hlen)]

theorem pairElem_butterflyAt_ne {x : Nat} (hlow : g + t ≠ x) (hhigh : g + t + h ≠ x) :
    pairElem (butterflyAt p m g h t w) x = pairElem w x := by
  rw [butterflyAt_eq, pairElem_set_ne _ _ hhigh, pairElem_set_ne _ _ hlow]

end

/-- The butterfly of half size `h` that owns an element: its group and its index. -/
def butterflyOwner (h x : Nat) : Nat × Nat := (x / (2 * h), x % h)

theorem butterflyOwner_low {h t : Nat} (ht : t < h) (q : Nat) : butterflyOwner h (q * (2 * h) + t) = (q, t) := by
  have hmod : q * (2 * h) + t = t + h * (2 * q) := by ring
  rw [butterflyOwner, Nat.mul_comm, Nat.mul_add_div (by omega), Nat.div_eq_of_lt (by omega), Nat.mul_comm, hmod,
    Nat.add_mul_mod_self_left, Nat.mod_eq_of_lt ht, Nat.add_zero]

theorem butterflyOwner_high {h t : Nat} (ht : t < h) (q : Nat) : butterflyOwner h (q * (2 * h) + t + h) = (q, t) := by
  have hmod : q * (2 * h) + t + h = t + h * (2 * q + 1) := by ring
  have hdiv : q * (2 * h) + t + h = 2 * h * q + (t + h) := by ring
  rw [butterflyOwner, hdiv, Nat.mul_add_div (by omega), Nat.div_eq_of_lt (by omega), ← hdiv, hmod,
    Nat.add_mul_mod_self_left, Nat.mod_eq_of_lt ht, Nat.add_zero]

theorem butterflyOwner_eq_iff {h t x : Nat} (ht : t < h) (q : Nat) :
    butterflyOwner h x = (q, t) ↔ x = q * (2 * h) + t ∨ x = q * (2 * h) + t + h := by
  refine ⟨fun hx => ?_, ?_⟩
  · obtain ⟨rfl, rfl⟩ : x / (2 * h) = q ∧ x % h = t := Prod.mk.inj hx
    have hhalves : x % (2 * h) = x % h + h * (x / h % 2) := Nat.mul_comm 2 h ▸ Nat.mod_mul
    have hsplit := Nat.div_add_mod' x (2 * h)
    obtain hlow | hhigh := Nat.mod_two_eq_zero_or_one (x / h)
    · rw [hlow, Nat.mul_zero] at hhalves
      omega
    · rw [hhigh, Nat.mul_one] at hhalves
      omega
  · rintro (rfl | rfl)
    · exact butterflyOwner_low ht q
    · exact butterflyOwner_high ht q

/-! ## One stage -/

/-- The butterflies of a stage of half size `h`, by group and index, in the order of R250's loops. -/
def stageIndices (p : Params) (h : Nat) : List (Nat × Nat) :=
  (List.range (p.fftSize / (2 * h))).product (List.range h)

/-- One butterfly of a stage in place, by group and index. -/
def stageUpdate (p : Params) (h : Nat) (w : List Pair) (i : Nat × Nat) : List Pair :=
  butterflyAt p (2 * h) (i.1 * (2 * h)) h i.2 w

/-- R250's two loops are one loop over the butterflies of the stage. -/
theorem fftStage_eq_foldl (p : Params) (w : List Pair) (h : Nat) :
    fftStage p w (2 * h) = (stageIndices p h).foldl (stageUpdate p h) w := by
  simp [fftStage, stageIndices, stageUpdate, List.product, List.foldl_flatMap, List.foldl_map]

theorem mem_stageIndices {p : Params} {h q t : Nat} :
    (q, t) ∈ stageIndices p h ↔ q < p.fftSize / (2 * h) ∧ t < h := by
  simp [stageIndices]

theorem stageIndices_nodup (p : Params) (h : Nat) : (stageIndices p h).Nodup :=
  List.nodup_range.product List.nodup_range

/-- A butterfly of a stage lies in WORK. -/
theorem butterfly_in_work {p : Params} {h q t : Nat} (hq : q < p.fftSize / (2 * h)) (ht : t < h) :
    q * (2 * h) + t + h < p.fftSize := by
  have hgroup : (q + 1) * (2 * h) ≤ p.fftSize := (Nat.le_div_iff_mul_le (by omega)).mp hq
  rw [Nat.add_mul] at hgroup
  omega

/-- R252: the butterflies of a stage work on disjoint pairs of elements. -/
theorem stageUpdate_owned {p : Params} {h : Nat} {i : Nat × Nat} (hi : i ∈ stageIndices p h) :
    UpdatesOwned (butterflyOwner h) p.fftSize (stageUpdate p h) i := by
  obtain ⟨q, t⟩ := i
  obtain ⟨hq, ht⟩ := mem_stageIndices.mp hi
  have hin := butterfly_in_work hq ht
  refine ⟨fun w => butterflyAt_length .., fun w x hx => ?_, fun w w' hw hw' heq x hx => ?_⟩
  · rw [ne_eq, butterflyOwner_eq_iff ht, not_or] at hx
    exact pairElem_butterflyAt_ne (Ne.symm hx.1) (Ne.symm hx.2)
  · have hof : butterflyOf p (2 * h) (q * (2 * h)) h t w = butterflyOf p (2 * h) (q * (2 * h)) h t w' := by
      rw [butterflyOf, butterflyOf, heq _ (butterflyOwner_low ht q), heq _ (butterflyOwner_high ht q)]
    simp only [stageUpdate]
    obtain rfl | rfl := (butterflyOwner_eq_iff ht q).mp hx
    · rw [pairElem_butterflyAt_low (by omega) (by omega), pairElem_butterflyAt_low (by omega) (by omega), hof]
    · rw [pairElem_butterflyAt_high (by omega), pairElem_butterflyAt_high (by omega), hof]

section
variable {p : Params} {h q t : Nat} {w : List Pair} (hw : w.length = p.fftSize) (hq : q < p.fftSize / (2 * h))
  (ht : t < h)
include hw hq ht

/-- After a stage, an element is what its one butterfly makes of the buffer before the stage. -/
theorem pairElem_fftStage {x : Nat} (hx : butterflyOwner h x = (q, t)) :
    pairElem (fftStage p w (2 * h)) x = pairElem (butterflyAt p (2 * h) (q * (2 * h)) h t w) x := by
  rw [fftStage_eq_foldl, pairElem_foldl_of_owned (fun _ => stageUpdate_owned) (stageIndices_nodup p h)
    (hx ▸ mem_stageIndices.mpr ⟨hq, ht⟩) hw, hx]
  rfl

theorem pairElem_fftStage_low : pairElem (fftStage p w (2 * h)) (q * (2 * h) + t) =
    (butterflyOf p (2 * h) (q * (2 * h)) h t w).1 := by
  rw [pairElem_fftStage hw hq ht (butterflyOwner_low ht q)]
  exact pairElem_butterflyAt_low (by omega) ((butterfly_in_work hq ht).trans_eq hw.symm)

theorem pairElem_fftStage_high : pairElem (fftStage p w (2 * h)) (q * (2 * h) + t + h) =
    (butterflyOf p (2 * h) (q * (2 * h)) h t w).2 := by
  rw [pairElem_fftStage hw hq ht (butterflyOwner_high ht q)]
  exact pairElem_butterflyAt_high ((butterfly_in_work hq ht).trans_eq hw.symm)

end

/-! ## FFT -/

/-- The buffers between the stages: the reversed input, and after each stage the next one. -/
def fftStages (p : Params) (work : List Pair) (k : Nat) : List Pair :=
  (List.range k).foldl (fun w k => fftStage p w (2 ^ (k + 1))) (bitrevBuffer p work)

theorem fftStages_succ (p : Params) (work : List Pair) (k : Nat) :
    fftStages p work (k + 1) = fftStage p (fftStages p work k) (2 * 2 ^ k) := by
  rw [fftStages, List.range_succ, List.foldl_append, List.foldl_cons, List.foldl_nil, Nat.pow_succ']
  rfl

@[simp] theorem fftStages_length (p : Params) (work : List Pair) (k : Nat) :
    (fftStages p work k).length = work.length := by
  rw [fftStages, foldl_length _ (fun w k => fftStage_length p w (2 ^ (k + 1))), bitrevBuffer_length]

/-- A saturated value, as it reads back from its 16-bit pattern. -/
theorem u16_sat16_toInt (v : Int) : (u16 (sat16 v)).toInt = max (-32768) (min 32767 v) := by
  rw [u16_toInt (sat16_bounds _).1 (sat16_bounds _).2, sat16_eq]

/-- R250, R252: the four outputs of a butterfly, as signed values. -/
theorem butterfly_toInt (w x z : Pair) :
    let tr := (z.re.toInt * w.re.toInt - z.im.toInt * w.im.toInt) / 32768
    let ti := (z.re.toInt * w.im.toInt + z.im.toInt * w.re.toInt) / 32768
    (butterfly w x z).1.re.toInt = max (-32768) (min 32767 ((x.re.toInt + tr) / 2))
    ∧ (butterfly w x z).1.im.toInt = max (-32768) (min 32767 ((x.im.toInt + ti) / 2))
    ∧ (butterfly w x z).2.re.toInt = max (-32768) (min 32767 ((x.re.toInt - tr) / 2))
    ∧ (butterfly w x z).2.im.toInt = max (-32768) (min 32767 ((x.im.toInt - ti) / 2)) := by
  simp [butterfly, u16_sat16_toInt, asr_eq_ediv, s16]

/-- Settles O11: the buffers between the stages are `fftStages`; a stage's elements are its butterflies on the buffer
before it, since these are disjoint. -/
theorem fftIsItsStagesOfButterflies : Obligations.FftIsItsStagesOfButterflies := by
  intro s hready hbusy hmode hlen
  refine ⟨_, _, execFft_accepts hready hbusy hmode, fft_completes s, rfl, fftStages s.cfg s.mem.work,
    fun k => (fftStages_length ..).trans hlen, fun n hn => pairElem_bitrevBuffer hlen hn,
    fun k q j hk hq hj => ?_, rfl⟩
  have hW : (fftStages s.cfg s.mem.work k).length = s.cfg.fftSize := (fftStages_length ..).trans hlen
  rw [Nat.pow_succ'] at hq
  simp only [Nat.pow_succ', fftStages_succ, pairElem_fftStage_low hW hq hj, pairElem_fftStage_high hW hq hj]
  exact butterfly_toInt ..

end Sys2Proof.Machine
end

section
/-! PROOFS. The dB function (R266): the integer comparisons of `decibelTrunc` are those of the exact reals, so that it
is the logarithm truncated toward zero; from it, its monotonicity (R268) and its table for the default clamps (R267). -/

namespace Sys2Proof.Machine

/-! ## Numbers `rat + irr * sqrt(m)` -/

/-- The real number a `Surd` stands for. -/
noncomputable def Surd.toReal (m : Nat) (x : Surd) : ℝ := x.rat + x.irr * √m

theorem surdMul_toReal (m : Nat) (x y : Surd) : (surdMul m x y).toReal m = x.toReal m * y.toReal m := by
  have hsq : √(m : ℝ) * √m = m := Real.mul_self_sqrt m.cast_nonneg
  simp only [surdMul, Surd.toReal, Nat.cast_add, Nat.cast_mul]
  linear_combination (-(x.irr : ℝ) * y.irr) * hsq

theorem surdPow_toReal (m : Nat) (x : Surd) (n : Nat) : (surdPow m x n).toReal m = x.toReal m ^ n := by
  induction n with
  | zero => simp [surdPow, Surd.toReal]
  | succ n ih => rw [surdPow, surdMul_toReal, ih, pow_succ]

/-- A multiple of `sqrt(m)` compared with a natural number by their squares. -/
theorem irr_mul_sqrt_sq (m b : Nat) : ((b : ℝ) * √m) ^ 2 = (b ^ 2 * m : Nat) := by
  rw [mul_pow, Real.sq_sqrt m.cast_nonneg]
  push_cast
  rfl

theorem surdGe_iff (m : Nat) (x : Surd) (r : Nat) : surdGe m x r = true ↔ (r : ℝ) ≤ x.toReal m := by
  have hirr : 0 ≤ (x.irr : ℝ) * √m := by positivity
  rw [surdGe, decide_eq_true_iff, Surd.toReal]
  obtain hle | hlt := le_or_gt r x.rat
  · have hcast : (r : ℝ) ≤ x.rat := by exact_mod_cast hle
    exact iff_of_true (.inl hle) (by linarith)
  · have hsub : ((r - x.rat : Nat) : ℝ) = r - x.rat := Nat.cast_sub hlt.le
    rw [or_iff_right (Nat.not_le.mpr hlt), ← Nat.cast_le (α := ℝ), ← irr_mul_sqrt_sq, Nat.cast_pow,
      pow_le_pow_iff_left₀ (Nat.cast_nonneg _) hirr two_ne_zero, hsub, sub_le_iff_le_add']

theorem surdLe_iff (m : Nat) (x : Surd) (r : Nat) : surdLe m x r = true ↔ x.toReal m ≤ r := by
  have hirr : 0 ≤ (x.irr : ℝ) * √m := by positivity
  rw [surdLe, decide_eq_true_iff, Surd.toReal]
  obtain hle | hlt := le_or_gt x.rat r
  · have hsub : ((r - x.rat : Nat) : ℝ) = r - x.rat := Nat.cast_sub hle
    rw [and_iff_right hle, ← Nat.cast_le (α := ℝ), ← irr_mul_sqrt_sq, Nat.cast_pow,
      pow_le_pow_iff_left₀ hirr (Nat.cast_nonneg _) two_ne_zero, hsub, le_sub_iff_add_le']
  · have hcast : (r : ℝ) < x.rat := by exact_mod_cast hlt
    exact iff_of_false (fun h => Nat.not_lt.mpr h.1 hlt) (by linarith)

/-! ## The greatest number of a downward closed set -/

theorem greatestUpTo_eq {q : Nat → Bool} {n k : Nat} (hk : k ≤ n) (hq : q k = true)
    (hmax : ∀ j, k < j → q j = false) : greatestUpTo q n = k := by
  induction n with
  | zero => rw [greatestUpTo, Nat.le_zero.mp hk]
  | succ n ih =>
    rw [greatestUpTo]
    obtain rfl | hlt := Nat.eq_or_lt_of_le hk
    · rw [if_pos hq]
    · rw [hmax (n + 1) hlt]
      exact ih (Nat.lt_succ_iff.mp hlt)

/-- The greatest number up to a bound that is at most `r` is the floor of `r`. -/
theorem greatestUpTo_eq_floor {q : Nat → Bool} {n : Nat} {r : ℝ} (hq : ∀ k, q k = true ↔ (k : ℝ) ≤ r) (h0 : 0 ≤ r)
    (hn : r < n + 1) : (greatestUpTo q n : Int) = ⌊r⌋ := by
  have hbound : ⌊r⌋₊ ≤ n := Nat.lt_succ_iff.mp ((Nat.floor_lt h0).mpr (by exact_mod_cast hn))
  rw [greatestUpTo_eq hbound ((hq _).mpr (Nat.floor_le h0)), Int.natCast_floor_eq_floor h0]
  intro j hj
  rw [← Bool.not_eq_true, hq, not_le]
  exact (Nat.floor_lt h0).mp hj

/-! ## The logarithm -/

/-- `trunc0(r)` of R20: truncation toward zero. -/
noncomputable def truncZero (r : ℝ) : Int := if 0 ≤ r then ⌊r⌋ else ⌈r⌉

theorem truncZero_mono : Monotone truncZero := by
  intro r r' h
  unfold truncZero
  split_ifs with hr hr' hr'
  · exact Int.floor_mono h
  · exact absurd (hr.trans h) hr'
  · exact (Int.ceil_le.mpr (by simpa using (not_le.mp hr).le)).trans (Int.floor_nonneg.mpr hr')
  · exact Int.ceil_mono h

/-- `sqrt(2m/8192) + 10^-e` (R266). -/
noncomputable def amplitude (e m : Nat) : ℝ := √(2 * m / 8192) + (1 / 10) ^ e

/-- `20*log10(sqrt(2m/8192) + 10^-e)` (R266). -/
noncomputable def decibel (e m : Nat) : ℝ := 20 * Real.logb 10 (amplitude e m)

theorem amplitude_pos (e m : Nat) : 0 < amplitude e m := by
  unfold amplitude
  positivity

theorem decibel_mono (e : Nat) : Monotone (decibel e) := by
  intro m m' h
  have hcast : (m : ℝ) ≤ m' := by exact_mod_cast h
  have hamp : amplitude e m ≤ amplitude e m' := by
    unfold amplitude
    gcongr
  unfold decibel
  gcongr
  · norm_num
  · exact amplitude_pos ..

/-- The twentieth power of the amplitude, in units of `unit20`, is the model's number. -/
theorem amplitude20_toReal (e m : Nat) : (amplitude20 e m).toReal m = unit20 e * amplitude e m ^ 20 := by
  have hsqrt : √(2 * m / 8192 : ℝ) = √m / 64 := by
    rw [show (2 * m / 8192 : ℝ) = m / 64 ^ 2 by ring, Real.sqrt_div' _ (by positivity), Real.sqrt_sq (by norm_num)]
  have hbase : (⟨64, 10 ^ e⟩ : Surd).toReal m = 64 * 10 ^ e * amplitude e m := by
    have hten : (10 : ℝ) ^ e * (1 / 10) ^ e = 1 := by rw [← mul_pow]; norm_num
    rw [amplitude, hsqrt, Surd.toReal]
    push_cast
    linear_combination (-64 : ℝ) * hten
  rw [amplitude20, surdPow_toReal, hbase, mul_pow, unit20]
  push_cast
  rfl

theorem unit20_pos (e : Nat) : (0 : ℝ) < unit20 e := by
  unfold unit20
  positivity

theorem rpow_decibel (e m : Nat) : (10 : ℝ) ^ decibel e m = amplitude e m ^ 20 := by
  rw [decibel, mul_comm, Real.rpow_mul (by norm_num), Real.rpow_logb (by norm_num) (by norm_num) (amplitude_pos e m)]
  exact_mod_cast Real.rpow_natCast ..

theorem le_decibel_iff (e m : Nat) (k : ℝ) : k ≤ decibel e m ↔ (10 : ℝ) ^ k ≤ amplitude e m ^ 20 := by
  rw [← rpow_decibel, Real.rpow_le_rpow_left_iff (by norm_num)]

theorem decibel_le_iff (e m : Nat) (k : ℝ) : decibel e m ≤ k ↔ amplitude e m ^ 20 ≤ (10 : ℝ) ^ k := by
  rw [← rpow_decibel, Real.rpow_le_rpow_left_iff (by norm_num)]

/-- The model's test for `20*log10 >= k`. -/
theorem surdGe_amplitude20_iff (e m k : Nat) :
    surdGe m (amplitude20 e m) (unit20 e * 10 ^ k) = true ↔ (k : ℝ) ≤ decibel e m := by
  rw [surdGe_iff, amplitude20_toReal, le_decibel_iff, Real.rpow_natCast, Nat.cast_mul,
    mul_le_mul_iff_right₀ (unit20_pos e)]
  norm_num

/-- The model's test for `20*log10 <= -k`. -/
theorem surdLe_amplitude20_iff (e m k : Nat) :
    surdLe m ⟨(amplitude20 e m).rat * 10 ^ k, (amplitude20 e m).irr * 10 ^ k⟩ (unit20 e) = true ↔
      (k : ℝ) ≤ -decibel e m := by
  have hscaled : (⟨(amplitude20 e m).rat * 10 ^ k, (amplitude20 e m).irr * 10 ^ k⟩ : Surd).toReal m
      = unit20 e * (amplitude e m ^ 20 * 10 ^ k) := by
    rw [← mul_assoc, ← amplitude20_toReal, Surd.toReal, Surd.toReal]
    push_cast
    ring
  rw [surdLe_iff, hscaled, le_neg, decibel_le_iff, Real.rpow_neg (by norm_num), Real.rpow_natCast,
    mul_le_iff_le_one_right (unit20_pos e), ← le_div_iff₀ (by positivity), one_div]

/-- No magnitude reaches 21 dB: the search's bound of 20 is enough. -/
theorem decibel_lt {m : Nat} (e : Nat) (hm : m ≤ 32767) : decibel e m < 21 := by
  have hcast : (m : ℝ) ≤ 32767 := by exact_mod_cast hm
  have hsqrt : √(2 * m / 8192 : ℝ) ≤ 3 := Real.sqrt_le_iff.mpr ⟨by norm_num, by linarith⟩
  have heps : (1 / 10 : ℝ) ^ e ≤ 1 := pow_le_one₀ (by norm_num) (by norm_num)
  have hamp : amplitude e m ≤ 4 := by unfold amplitude; linarith
  have hpow : amplitude e m ^ 20 ≤ 4 ^ 20 := pow_le_pow_left₀ (amplitude_pos e m).le hamp 20
  rw [← not_le, le_decibel_iff, not_le]
  exact hpow.trans_lt (by norm_num)

/-- No magnitude is below `-20*e` dB. -/
theorem neg_decibel_le (e m : Nat) : -decibel e m ≤ (20 * e : Nat) := by
  have hamp : (1 / 10 : ℝ) ^ e ≤ amplitude e m := le_add_of_nonneg_left (Real.sqrt_nonneg _)
  have hpow : ((1 / 10 : ℝ) ^ e) ^ 20 ≤ amplitude e m ^ 20 := pow_le_pow_left₀ (by positivity) hamp 20
  rw [neg_le, le_decibel_iff, Real.rpow_neg (by norm_num), Real.rpow_natCast, Nat.mul_comm, pow_mul]
  simpa using hpow

/-! ## The model's dB function -/

/-- R266: the integer comparisons give the logarithm truncated toward zero. -/
theorem decibelTrunc_eq {m : Nat} (e : Nat) (hm : m ≤ 32767) : decibelTrunc e m = truncZero (decibel e m) := by
  have hsign := surdGe_amplitude20_iff e m 0
  rw [pow_zero, mul_one, Nat.cast_zero] at hsign
  unfold decibelTrunc truncZero
  by_cases hr : 0 ≤ decibel e m
  · rw [if_pos (hsign.mpr hr), if_pos hr]
    exact greatestUpTo_eq_floor (surdGe_amplitude20_iff e m) hr ((decibel_lt e hm).trans_eq (by norm_num))
  · rw [if_neg (mt hsign.mp hr), if_neg hr, neg_eq_iff_eq_neg, ← Int.floor_neg]
    exact greatestUpTo_eq_floor (surdLe_amplitude20_iff e m) (by linarith)
      ((neg_decibel_le e m).trans_lt (lt_add_one _))

/-- R266: `dbfun` of a 16-bit value is the clamped truncation of the dB value. -/
theorem dbfun_eq (p : Params) {m : Int} (hm : m ≤ 32767) :
    dbfun p m = min p.dbMax (max p.dbMin (truncZero (decibel p.dbEpsExp m.toNat))) := by
  rw [dbfun, decibelTrunc_eq _ (by omega), clamp]

/-- Settles O53: the rule's real is `decibel` of the value with a negative one taken as 0. -/
theorem dbfunIsTheRuleOverTheReals : Obligations.DbfunIsTheRuleOverTheReals := by
  intro p m x r _ _ hhi hr hfloor hceil
  have hm : ((max m 0 : Int) : ℝ) = m.toNat := by exact_mod_cast (Int.toNat_eq_max m).symm
  have hr' : r = decibel p.dbEpsExp m.toNat := by rw [hr, hm, decibel, amplitude]
  have hx : x = truncZero r := by
    unfold truncZero
    split
    case isTrue h => exact hfloor h
    case isFalse h => exact hceil (not_le.mp h)
  rw [dbfun_eq p hhi, hx, hr']

/-- R268: truncation, logarithm and clamping are monotone. -/
theorem dbfun_mono (p : Params) {m m' : Int} (h : m ≤ m') (hhi : m' ≤ 32767) : dbfun p m ≤ dbfun p m' := by
  rw [dbfun_eq p (h.trans hhi), dbfun_eq p hhi]
  have htrunc := truncZero_mono (decibel_mono p.dbEpsExp (Int.toNat_le_toNat h))
  omega

/-- Settles O55. -/
theorem dbfunIsMonotone : Obligations.DbfunIsMonotone :=
  fun p _ _ _ _ h hhi => dbfun_mono p h hhi

/-- The table of R267: the least and the greatest `m` of a range, and its value. -/
def decibelTable : List (Int × Int × Int) :=
  [(-32768, 0, -100), (1, 1, -36), (2, 2, -33), (3, 3, -31), (4, 4, -30), (5, 5, -29),
    (6, 6, -28), (7, 8, -27), (9, 10, -26), (11, 12, -25), (13, 16, -24), (17, 20, -23), (21, 25, -22),
    (26, 32, -21), (33, 40, -20), (41, 51, -19), (52, 64, -18), (65, 81, -17), (82, 102, -16), (103, 129, -15),
    (130, 163, -14), (164, 205, -13), (206, 258, -12), (259, 325, -11), (326, 409, -10), (410, 515, -9),
    (516, 649, -8), (650, 817, -7), (818, 1028, -6), (1029, 1295, -5), (1296, 1630, -4), (1631, 2052, -3),
    (2053, 2584, -2), (2585, 3253, -1), (3254, 32767, 0)]

/-- Both ends of every range of the table have its value. -/
theorem decibelTrunc_ends {e : Nat} (he : e = 5 ∨ e = 6) : ∀ row ∈ decibelTable, row.2.1 ≤ 32767
    ∧ clamp (decibelTrunc e row.1.toNat) (-100) 0 = row.2.2
    ∧ clamp (decibelTrunc e row.2.1.toNat) (-100) 0 = row.2.2 := by
  obtain rfl | rfl := he
  · decide +kernel
  · decide +kernel

/-- Settles O54: `dbfun` is monotone and has the same value at both ends of a range. -/
theorem dbfunIsTheTableForTheDefaults : Obligations.DbfunIsTheTableForTheDefaults := by
  intro p m hmin hmax he _ _ lo hi db hrow hlo hhi
  obtain ⟨hhi16, hatLo, hatHi⟩ := decibelTrunc_ends he (lo, hi, db) hrow
  rw [← hmin, ← hmax] at hatLo hatHi
  have habove : db ≤ dbfun p m := hatLo.symm.trans_le (dbfun_mono p hlo (hhi.trans hhi16))
  have hbelow : dbfun p m ≤ db := (dbfun_mono p hhi hhi16).trans_eq hatHi
  exact le_antisymm hbelow habove

end Sys2Proof.Machine
end

section
/-! PROOFS. The accuracy of the tables' cosine (R240, R241, log 14): `cosScaled` and `sinScaled` are the cosine and the
sine of their angle to within `tableError`, by the error of the Taylor sum and of its roundings. -/

namespace Sys2Proof.Machine

/-! ## The Taylor sum of the cosine -/

/-- The even terms of the exponential series of `t*I` are those of the cosine series, the odd ones imaginary. -/
theorem expSeries_mul_I_re (t : ℝ) (n : Nat) :
    (∑ m ∈ Finset.range (2 * n), ((t : ℂ) * Complex.I) ^ m / m.factorial).re
      = ∑ j ∈ Finset.range n, (-1) ^ j * t ^ (2 * j) / (2 * j).factorial := by
  induction n with
  | zero => simp
  | succ n ih =>
    have heven : ((t : ℂ) * Complex.I) ^ (2 * n) / (2 * n).factorial
        = ((-1) ^ n * t ^ (2 * n) / (2 * n).factorial : ℝ) := by
      rw [mul_pow, pow_mul Complex.I, Complex.I_sq]
      push_cast
      ring
    have hodd : ((t : ℂ) * Complex.I) ^ (2 * n + 1) / (2 * n + 1).factorial
        = ((-1) ^ n * t ^ (2 * n + 1) / (2 * n + 1).factorial : ℝ) * Complex.I := by
      rw [mul_pow, pow_succ Complex.I, pow_mul Complex.I, Complex.I_sq]
      push_cast
      ring
    rw [Nat.mul_succ, Finset.sum_range_succ, Finset.sum_range_succ, Finset.sum_range_succ, Complex.add_re,
      Complex.add_re, ih, heven, hodd, Complex.re_ofReal_mul, Complex.ofReal_re, Complex.I_re, mul_zero, add_zero]

/-- Seventeen terms of the cosine series, by the square `q` of the angle. -/
theorem cos_sqrt_taylor {q : ℝ} (h0 : 0 ≤ q) (hq : q ≤ 5 / 2) :
    |Real.cos √q - ∑ j ∈ Finset.range 17, (-1) ^ j * q ^ j / (2 * j).factorial| ≤ 1 / 10 ^ 30 := by
  have hsqrt : √q ≤ 2 := Real.sqrt_le_iff.mpr ⟨by norm_num, by linarith⟩
  have hnorm : ‖(√q : ℂ) * Complex.I‖ = √q := by simp [abs_of_nonneg (Real.sqrt_nonneg q)]
  have hsum : (∑ m ∈ Finset.range 34, ((√q : ℂ) * Complex.I) ^ m / m.factorial).re
      = ∑ j ∈ Finset.range 17, (-1) ^ j * q ^ j / (2 * j).factorial := by
    simpa only [pow_mul, Real.sq_sqrt h0] using expSeries_mul_I_re √q 17
  have hexp := Complex.exp_bound' (x := (√q : ℂ) * Complex.I) (n := 34) (by
    rw [hnorm, div_le_iff₀ (by positivity)]
    norm_num
    linarith)
  have hpow : √q ^ 34 ≤ (5 / 2) ^ 17 := by
    rw [show 34 = 2 * 17 from rfl, pow_mul, Real.sq_sqrt h0]
    exact pow_le_pow_left₀ h0 hq 17
  rw [← hsum, ← Complex.exp_ofReal_mul_I_re, ← Complex.sub_re]
  calc _ ≤ _ := Complex.abs_re_le_norm _
    _ ≤ ‖(√q : ℂ) * Complex.I‖ ^ 34 / (34).factorial * 2 := hexp
    _ = √q ^ 34 / (34).factorial * 2 := by rw [hnorm]
    _ ≤ (5 / 2) ^ 17 / (34).factorial * 2 := by gcongr
    _ ≤ 1 / 10 ^ 30 := by norm_num [Nat.factorial]

/-- The tail of the series from term `k` on, over the reals, in the form of `cosTail`. -/
noncomputable def cosTailReal (q : ℝ) : Nat → Nat → ℝ → ℝ
  | 0, _, _ => 0
  | fuel + 1, k, t => t - cosTailReal q fuel (k + 1) (t * q / ((2 * k + 1) * (2 * k + 2)))

theorem cosTailReal_eq_sum (q : ℝ) (fuel k : Nat) : cosTailReal q fuel k (q ^ k / (2 * k).factorial)
    = ∑ j ∈ Finset.range fuel, (-1) ^ j * q ^ (k + j) / (2 * (k + j)).factorial := by
  induction fuel generalizing k with
  | zero => simp [cosTailReal]
  | succ fuel ih =>
    have hnext : q ^ k / (2 * k).factorial * q / ((2 * k + 1) * (2 * k + 2))
        = q ^ (k + 1) / (2 * (k + 1)).factorial := by
      rw [show 2 * (k + 1) = 2 * k + 1 + 1 by ring, Nat.factorial_succ, Nat.factorial_succ]
      push_cast
      field_simp
      ring
    rw [cosTailReal, hnext, ih, Finset.sum_range_succ', sub_eq_add_neg, add_comm, ← Finset.sum_neg_distrib]
    congr 1
    · refine Finset.sum_congr rfl fun j _ => ?_
      rw [show k + 1 + j = k + (j + 1) by ring]
      ring
    · simp

/-! ## Roundings -/

/-- The unit of the model's scaled numbers. -/
noncomputable def scaleUnit : ℝ := 2 ^ 80

theorem scaleUnit_pos : 0 < scaleUnit := by unfold scaleUnit; positivity

/-- An error of a scaled number, in the number's own size. -/
theorem div_scaleUnit_error {a y e : ℝ} (h : |a - scaleUnit * y| ≤ e) : |a / scaleUnit - y| ≤ e / scaleUnit := by
  have hU := scaleUnit_pos
  rw [le_div_iff₀ hU]
  calc |a / scaleUnit - y| * scaleUnit = |(a / scaleUnit - y) * scaleUnit| := by rw [abs_mul, abs_of_pos hU]
    _ = |a - scaleUnit * y| := by
      congr 1
      field_simp
    _ ≤ e := h

theorem natDiv_error (m n : Nat) : |((m / n : Nat) : ℝ) - m / n| ≤ 1 := by
  rw [← Nat.floor_div_eq_div (K := ℝ), abs_sub_comm, abs_le]
  have hle := Nat.floor_le (show (0 : ℝ) ≤ m / n by positivity)
  have hlt := Nat.lt_floor_add_one ((m : ℝ) / n)
  constructor <;> linarith

/-- The next term of the series, rounded down: the error of the term before it shrinks with the term. -/
theorem nextTerm_error {sq term k : Nat} {t e : ℝ} (hsq : sq ≤ 5 / 2 * scaleUnit)
    (he : |term - scaleUnit * t| ≤ e) :
    |((term * sq / (2 ^ 80 * ((2 * k + 1) * (2 * k + 2))) : Nat) : ℝ)
      - scaleUnit * (t * (sq / scaleUnit) / ((2 * k + 1) * (2 * k + 2)))|
      ≤ e * (5 / 2) / ((2 * k + 1) * (2 * k + 2)) + 1 := by
  have hU := scaleUnit_pos
  have hdiv := natDiv_error (term * sq) (2 ^ 80 * ((2 * k + 1) * (2 * k + 2)))
  have hcast : ((2 ^ 80 * ((2 * k + 1) * (2 * k + 2)) : Nat) : ℝ) = scaleUnit * ((2 * k + 1) * (2 * k + 2)) := by
    unfold scaleUnit
    push_cast
    ring
  have hsplit : (term * sq : ℝ) / (scaleUnit * ((2 * k + 1) * (2 * k + 2)))
      - scaleUnit * (t * (sq / scaleUnit) / ((2 * k + 1) * (2 * k + 2)))
      = (term - scaleUnit * t) * (sq / scaleUnit) / ((2 * k + 1) * (2 * k + 2)) := by
    field_simp
  have hratio : |(sq / scaleUnit : ℝ)| ≤ 5 / 2 := by
    rw [abs_of_nonneg (by positivity), div_le_iff₀ hU]
    exact hsq
  have he0 := (abs_nonneg _).trans he
  have hshrink : |(term - scaleUnit * t) * (sq / scaleUnit) / ((2 * k + 1) * (2 * k + 2))|
      ≤ e * (5 / 2) / ((2 * k + 1) * (2 * k + 2)) := by
    rw [abs_div, abs_mul, abs_of_pos (show (0 : ℝ) < (2 * k + 1) * (2 * k + 2) by positivity)]
    gcongr
  rw [hcast, Nat.cast_mul] at hdiv
  rw [← hsplit] at hshrink
  rw [add_comm (e * (5 / 2) / _)]
  exact (abs_sub_le _ _ _).trans (add_le_add hdiv hshrink)

/-- From the second term on each term is at most a quarter of the one before, so the errors add up to twice the first
and two for each rounding. -/
theorem cosTail_error_of_pos {sq : Nat} (hsq : sq ≤ 5 / 2 * scaleUnit) (fuel : Nat) {k term : Nat} {t e : ℝ}
    (hk : 1 ≤ k) (he : |term - scaleUnit * t| ≤ e) :
    |cosTail sq fuel k term - scaleUnit * cosTailReal (sq / scaleUnit) fuel k t| ≤ 2 * e + 2 * fuel := by
  induction fuel generalizing k term t e with
  | zero =>
    have he0 := (abs_nonneg _).trans he
    simpa [cosTail, cosTailReal] using he0
  | succ fuel ih =>
    have he0 := (abs_nonneg _).trans he
    have hk' : (1 : ℝ) ≤ k := by exact_mod_cast hk
    have hquarter : e * (5 / 2) / ((2 * k + 1) * (2 * k + 2)) ≤ e / 4 := by
      have hterms : 10 ≤ (2 * k + 1 : ℝ) * (2 * k + 2) := by nlinarith
      rw [div_le_div_iff₀ (by positivity) (by norm_num)]
      nlinarith
    have hrest := ih (Nat.le_add_left 1 k) (nextTerm_error (k := k) hsq he)
    rw [cosTail, cosTailReal, Int.cast_sub, Int.cast_natCast, mul_sub, sub_sub_sub_comm]
    refine (abs_sub _ _).trans ?_
    push_cast at *
    linarith

/-- The model's seventeen terms, with `sq` the square of the angle. -/
theorem cosTail_error {sq : Nat} (hsq : sq ≤ 5 / 2 * scaleUnit) :
    |cosTail sq 17 0 (2 ^ 80) - scaleUnit * Real.cos √(sq / scaleUnit)| ≤ 35 := by
  have hU := scaleUnit_pos
  have hone : |((2 ^ 80 : Nat) : ℝ) - scaleUnit * 1| ≤ 0 := by
    rw [scaleUnit]
    norm_num
  have hrest := cosTail_error_of_pos hsq 16 le_rfl (nextTerm_error (k := 0) hsq hone)
  have hround : |cosTail sq 17 0 (2 ^ 80) - scaleUnit * cosTailReal (sq / scaleUnit) 17 0 1| ≤ 34 := by
    rw [cosTail, cosTailReal, Int.cast_sub, Int.cast_natCast, mul_sub, sub_sub_sub_comm]
    refine (abs_sub _ _).trans ?_
    push_cast at *
    linarith
  have htaylor := cos_sqrt_taylor (q := sq / scaleUnit) (by positivity) ((div_le_iff₀ hU).mpr hsq)
  have hseries := cosTailReal_eq_sum (sq / scaleUnit) 17 0
  simp only [pow_zero, Nat.mul_zero, Nat.factorial_zero, Nat.cast_one, div_one, Nat.zero_add] at hseries
  rw [← hseries, abs_sub_comm] at htaylor
  have hscaled : |scaleUnit * cosTailReal (sq / scaleUnit) 17 0 1 - scaleUnit * Real.cos √(sq / scaleUnit)| ≤ 1 := by
    rw [← mul_sub, abs_mul, abs_of_pos hU]
    calc _ ≤ scaleUnit * (1 / 10 ^ 30) := by gcongr
      _ ≤ 1 := by unfold scaleUnit; norm_num
  exact (abs_sub_le _ _ _).trans ((add_le_add hround hscaled).trans_eq (by norm_num))

/-! ## The angle -/

theorem piScaled_error : |piScaled / scaleUnit - Real.pi| ≤ 1 / 10 ^ 20 := by
  have hlo := Real.pi_gt_d20
  have hhi := Real.pi_lt_d20
  unfold scaleUnit piScaled
  rw [abs_le]
  constructor <;> norm_num at * <;> linarith

/-- Two cosines differ by at most half the difference of the squares of their angles. -/
theorem abs_cos_sub_cos_le_sq (a b : ℝ) : |Real.cos a - Real.cos b| ≤ |a ^ 2 - b ^ 2| / 2 := by
  have hsum : |Real.sin ((a + b) / 2)| ≤ |(a + b) / 2| := Real.abs_sin_le_abs
  have hdiff : |Real.sin ((a - b) / 2)| ≤ |(a - b) / 2| := Real.abs_sin_le_abs
  calc |Real.cos a - Real.cos b| = 2 * (|Real.sin ((a + b) / 2)| * |Real.sin ((a - b) / 2)|) := by
        rw [Real.cos_sub_cos, abs_mul, abs_mul]
        norm_num [mul_assoc]
    _ ≤ 2 * (|(a + b) / 2| * |(a - b) / 2|) := by gcongr
    _ = |a ^ 2 - b ^ 2| / 2 := by
        rw [← abs_mul, show (a + b) / 2 * ((a - b) / 2) = (a ^ 2 - b ^ 2) / 4 by ring, abs_div]
        norm_num
        ring

/-- How near the model's scaled cosine is to the cosine: far below the distance of a table value from a rounding
boundary (log 14). -/
noncomputable def tableError : ℝ := 1 / 10 ^ 18

/-- A scaled number is near a real one. -/
def NearScaled (c : Int) (y : ℝ) : Prop := |c / scaleUnit - y| ≤ tableError

theorem NearScaled.neg {c : Int} {y : ℝ} (h : NearScaled c y) : NearScaled (-c) (-y) := by
  rwa [NearScaled, Int.cast_neg, neg_div, neg_sub_neg, abs_sub_comm]

/-- The model's angle, a fraction of the turn rounded down. -/
theorem angle_error {num den : Nat} (hden : 0 < den) (hquarter : 4 * num ≤ den) :
    |((2 * piScaled * num / den : Nat) : ℝ) / scaleUnit - 2 * Real.pi * num / den| ≤ 1 / 10 ^ 20 := by
  have hU := scaleUnit_pos
  have hden' : (0 : ℝ) < den := by exact_mod_cast hden
  have hturn : (num / den : ℝ) ≤ 1 / 4 := by
    have hcast : (4 * num : ℝ) ≤ den := by exact_mod_cast hquarter
    rw [div_le_div_iff₀ hden' (by norm_num)]
    linarith
  have hround : |((2 * piScaled * num / den : Nat) : ℝ) / scaleUnit - 2 * piScaled * num / den / scaleUnit|
      ≤ 1 / scaleUnit := by
    have hdiv := natDiv_error (2 * piScaled * num) den
    push_cast at hdiv
    rw [← sub_div, abs_div, abs_of_pos hU]
    gcongr
  have hpi : |2 * piScaled * num / den / scaleUnit - 2 * Real.pi * num / den| ≤ 1 / 2 * (1 / 10 ^ 20) := by
    have hfactor : 2 * piScaled * num / den / scaleUnit - 2 * Real.pi * num / den
        = 2 * (num / den) * (piScaled / scaleUnit - Real.pi) := by ring
    rw [hfactor, abs_mul, abs_of_nonneg (by positivity)]
    exact mul_le_mul (by linarith) piScaled_error (abs_nonneg _) (by norm_num)
  refine (abs_sub_le _ _ _).trans ((add_le_add hround hpi).trans ?_)
  unfold scaleUnit
  norm_num

/-- The square of the model's angle, rounded down. -/
theorem square_error {x : Nat} {θ : ℝ} (h0 : 0 ≤ θ) (h2 : θ ≤ 1.571)
    (hangle : |x / scaleUnit - θ| ≤ 1 / 10 ^ 20) :
    |((x * x / 2 ^ 80 : Nat) : ℝ) / scaleUnit - θ ^ 2| ≤ 1 / 10 ^ 19 := by
  have hU := scaleUnit_pos
  have hround : |((x * x / 2 ^ 80 : Nat) : ℝ) / scaleUnit - (x / scaleUnit) ^ 2| ≤ 1 / scaleUnit := by
    have hdiv := natDiv_error (x * x) (2 ^ 80)
    have hsplit : ((x * x : Nat) : ℝ) / (2 ^ 80 : Nat) = scaleUnit * (x / scaleUnit) ^ 2 := by
      unfold scaleUnit
      push_cast
      ring
    exact div_scaleUnit_error (hsplit ▸ hdiv)
  have hsquares : |(x / scaleUnit) ^ 2 - θ ^ 2| ≤ 4 * (1 / 10 ^ 20) := by
    have hsum : |x / scaleUnit + θ| ≤ 4 := by
      obtain ⟨-, hhi⟩ := abs_le.mp hangle
      rw [abs_of_nonneg (by positivity)]
      norm_num at *
      linarith
    rw [sq_sub_sq, abs_mul]
    gcongr
  refine (abs_sub_le _ _ _).trans ((add_le_add hround hsquares).trans ?_)
  unfold scaleUnit
  norm_num

theorem cosQuarter_near {num den : Nat} (hden : 0 < den) (hquarter : 4 * num ≤ den) :
    NearScaled (cosQuarter num den) (Real.cos (2 * Real.pi * num / den)) := by
  have hU := scaleUnit_pos
  have hden' : (0 : ℝ) < den := by exact_mod_cast hden
  generalize hx : 2 * piScaled * num / den = x
  generalize hθ : 2 * Real.pi * num / den = θ
  have hθ0 : 0 ≤ θ := by rw [← hθ]; positivity
  have hθ2 : θ ≤ 1.571 := by
    have hcast : (4 * num : ℝ) ≤ den := by exact_mod_cast hquarter
    have hpi := Real.pi_lt_d4
    rw [← hθ, div_le_iff₀ hden']
    nlinarith [Real.pi_pos]
  have hangle : |x / scaleUnit - θ| ≤ 1 / 10 ^ 20 := by rw [← hx, ← hθ]; exact angle_error hden hquarter
  generalize hsq : x * x / 2 ^ 80 = sq
  have hsquare : |sq / scaleUnit - θ ^ 2| ≤ 1 / 10 ^ 19 := by
    rw [← hsq]
    exact square_error hθ0 hθ2 hangle
  have hsmall : sq ≤ 5 / 2 * scaleUnit := by
    rw [← div_le_iff₀ hU]
    have hle := (abs_le.mp hsquare).2
    norm_num at hle
    nlinarith
  have hcos := abs_cos_sub_cos_le_sq √(sq / scaleUnit) θ
  rw [Real.sq_sqrt (by positivity)] at hcos
  have hterms : |cosQuarter num den / scaleUnit - Real.cos √(sq / scaleUnit)| ≤ 35 / scaleUnit := by
    have hdef : cosQuarter num den = cosTail sq 17 0 (2 ^ 80) := by rw [← hsq, ← hx]; rfl
    rw [hdef]
    exact div_scaleUnit_error (cosTail_error hsmall)
  have hsum : 35 / scaleUnit + 1 / 10 ^ 19 ≤ tableError := by
    unfold tableError scaleUnit
    norm_num
  have hhalf := abs_nonneg (sq / scaleUnit - θ ^ 2)
  exact (abs_sub_le _ _ _).trans ((add_le_add hterms (hcos.trans (by linarith))).trans hsum)

/-- The model's cosine of any fraction of the turn. -/
theorem cosScaled_near (num : Nat) {den : Nat} (hden : 0 < den) :
    NearScaled (cosScaled num den) (Real.cos (2 * Real.pi * num / den)) := by
  have hden' : (den : ℝ) ≠ 0 := by exact_mod_cast hden.ne'
  generalize hr : num % den = r
  have hrlt : r < den := hr ▸ Nat.mod_lt _ hden
  generalize hm : min r (den - r) = m
  have hmle : 2 * m ≤ den := by omega
  have hturns : Real.cos (2 * Real.pi * num / den) = Real.cos (2 * Real.pi * r / den) := by
    have hnum : (num : ℝ) = den * (num / den : Nat) + r := by exact_mod_cast hr ▸ (Nat.div_add_mod num den).symm
    rw [← Real.cos_add_nat_mul_two_pi (2 * Real.pi * r / den) (num / den), hnum]
    congr 1
    field_simp
    ring
  have hfold : Real.cos (2 * Real.pi * r / den) = Real.cos (2 * Real.pi * m / den) := by
    obtain hle | hle := Nat.le_total r (den - r)
    · rw [← hm, Nat.min_eq_left hle]
    · rw [← hm, Nat.min_eq_right hle, Nat.cast_sub hrlt.le, ← Real.cos_two_pi_sub]
      congr 1
      field_simp
  rw [hturns, hfold]
  simp only [cosScaled, hr, hm]
  split
  case isTrue hquarter => exact cosQuarter_near hden hquarter
  case isFalse hquarter =>
    have hsupplement : Real.cos (2 * Real.pi * m / den)
        = -Real.cos (2 * Real.pi * (den - 2 * m : Nat) / (2 * den : Nat)) := by
      rw [← Real.cos_pi_sub, Nat.cast_sub hmle]
      push_cast
      congr 1
      field_simp
      ring
    rw [hsupplement]
    exact (cosQuarter_near (by omega) (by omega)).neg

/-- The model's sine, as the cosine of the quarter turn less the angle. -/
theorem sinScaled_near (num : Nat) {den : Nat} (hden : 0 < den) :
    NearScaled (sinScaled num den) (Real.sin (2 * Real.pi * num / den)) := by
  have hden' : (den : ℝ) ≠ 0 := by exact_mod_cast hden.ne'
  have hquarter : Real.sin (2 * Real.pi * num / den)
      = Real.cos (2 * Real.pi * (((den : Int) - 4 * num).natAbs : Nat) / (4 * den : Nat)) := by
    have habs : (((den : Int) - 4 * num).natAbs : ℝ) = |(den : ℝ) - 4 * num| := by
      rw [Nat.cast_natAbs]
      push_cast
      rfl
    have hangle : 2 * Real.pi * |(den : ℝ) - 4 * num| / (4 * den : Nat)
        = |Real.pi / 2 - 2 * Real.pi * num / den| := by
      have hsplit : Real.pi / 2 - 2 * Real.pi * num / den = 2 * Real.pi / (4 * den) * (den - 4 * num) := by
        field_simp
        ring
      have hturn : 0 ≤ 2 * Real.pi / (4 * den : ℝ) := by positivity
      rw [hsplit, abs_mul, abs_of_nonneg hturn]
      push_cast
      ring
    rw [habs, hangle, Real.cos_abs, Real.cos_pi_div_two_sub]
  rw [hquarter]
  exact cosScaled_near _ (by omega)

end Sys2Proof.Machine
end

section
/-! PROOFS. The tables HANN (R240) and TWID (R241): the model's rounded values are those of the exact reals, since no
value of any legal size is near a rounding boundary (log 14). That no value is near one is a fact of each single value:
a walk around the first quarter turn, by a rotation whose error is proved, looks at them all. -/

namespace Sys2Proof.Machine

/-! ## Rounding away from a boundary -/

/-- `v*y` is not near a half, where rounding half up goes from one integer to the next. -/
def ClearOfHalves (v : Int) (y : ℝ) : Prop :=
  ∃ q : Int, q + 1 / 2 ^ 21 ≤ v * y + 1 / 2 ∧ v * y + 1 / 2 ≤ q + 1 - 1 / 2 ^ 21

section
variable {v : Int} {y : ℝ} (h : ClearOfHalves v y)
include h

theorem ClearOfHalves.neg : ClearOfHalves v (-y) := by
  obtain ⟨q, hlo, hhi⟩ := h
  refine ⟨-q, ?_, ?_⟩ <;> push_cast <;> linarith

theorem ClearOfHalves.neg_left : ClearOfHalves (-v) y := by
  obtain ⟨q, hlo, hhi⟩ := h.neg
  refine ⟨q, ?_, ?_⟩ <;> push_cast <;> linarith

theorem ClearOfHalves.one_sub : ClearOfHalves v (1 - y) := by
  obtain ⟨q, hlo, hhi⟩ := h.neg
  refine ⟨v + q, ?_, ?_⟩ <;> push_cast <;> linarith

end

theorem NearScaled.one_sub {c : Int} {y : ℝ} (h : NearScaled c y) : NearScaled (2 ^ 80 - c) (1 - y) := by
  have hone : ((2 ^ 80 - c : Int) : ℝ) / scaleUnit = 1 - c / scaleUnit := by
    have hunit : ((2 ^ 80 : Int) : ℝ) / scaleUnit = 1 := by
      unfold scaleUnit
      norm_num
    rw [Int.cast_sub, sub_div, hunit]
  rwa [NearScaled, hone, sub_sub_sub_cancel_left, abs_sub_comm]

/-- The model's rounding is rounding half up over the reals. -/
theorem roundScaled_eq_floor (v c : Int) : roundScaled v c = ⌊(v : ℝ) * (c / scaleUnit) + 1 / 2⌋ := by
  have hreal : (v : ℝ) * (c / scaleUnit) + 1 / 2 = ((v * c + 2 ^ 79 : Int) : ℝ) / ((2 ^ 80 : Int) : ℝ) := by
    unfold scaleUnit
    push_cast
    ring
  rw [roundScaled, asr_eq_ediv, hreal, Int.floor_div_cast_of_nonneg (by norm_num), Int.floor_intCast]

/-- Away from a boundary the rounding of a near number is the rounding of the number. -/
theorem roundScaled_eq_of_clear {v c : Int} {y : ℝ} (hv : |v| ≤ 32768) (hc : NearScaled c y)
    (hclear : ClearOfHalves v y) : roundScaled v c = ⌊(v : ℝ) * y + 1 / 2⌋ := by
  obtain ⟨q, hlo, hhi⟩ := hclear
  have hv' : |(v : ℝ)| ≤ 32768 := by exact_mod_cast hv
  have hdiff : |(v : ℝ) * (c / scaleUnit) - v * y| ≤ 32768 * tableError := by
    rw [← mul_sub, abs_mul]
    exact mul_le_mul hv' hc (abs_nonneg _) (by norm_num)
  have hsmall : 32768 * tableError < 1 / 2 ^ 21 := by
    unfold tableError
    norm_num
  obtain ⟨hge, hle⟩ := abs_le.mp hdiff
  have hmodel : ⌊(v : ℝ) * (c / scaleUnit) + 1 / 2⌋ = q := Int.floor_eq_iff.mpr ⟨by linarith, by linarith⟩
  have hreal : ⌊(v : ℝ) * y + 1 / 2⌋ = q := Int.floor_eq_iff.mpr ⟨by linarith, by linarith⟩
  rw [roundScaled_eq_floor, hmodel, hreal]

/-! ## A walk around the first quarter turn -/

/-- The rounding of `v*c` is the same a little below and a little above `c`, where `c` is scaled by `2^80`. -/
def clearAt (v c : Nat) : Bool := (v * c + (2 ^ 79 - 2 ^ 60)) >>> 80 == (v * c + (2 ^ 79 + 2 ^ 60)) >>> 80

/-- `clearAt` at `n` points `(c, s)` of a circle, each the one before it turned by the angle of `(x, y)`. -/
def walkClear (v x y : Nat) : Nat → Nat → Nat → Bool
  | 0, _, _ => true
  | n + 1, c, s => clearAt v c && walkClear v x y n ((c * x - s * y) >>> 80) ((s * x + c * y) >>> 80)

/-- The walk from angle 0 in steps of `pi/h`, up to a quarter turn. -/
def quarterClear (v h : Nat) : Bool :=
  walkClear v (cosScaled 1 (2 * h)).toNat (sinScaled 1 (2 * h)).toNat (h / 2 + 1) (2 ^ 80) 0

theorem clearOfHalves_of_clearAt {v c : Nat} {y : ℝ} (hv : v ≤ 32768) (hclear : clearAt v c = true)
    (hc : |c / scaleUnit - y| ≤ 1 / 10 ^ 12) : ClearOfHalves v y := by
  rw [clearAt, beq_iff_eq, Nat.shiftRight_eq_div_pow, Nat.shiftRight_eq_div_pow] at hclear
  generalize hq : (v * c + (2 ^ 79 + 2 ^ 60)) / 2 ^ 80 = q at hclear
  have hlo : q * 2 ^ 80 + 2 ^ 60 ≤ v * c + 2 ^ 79 := by omega
  have hhi : v * c + 2 ^ 79 + 2 ^ 60 ≤ (q + 1) * 2 ^ 80 := by omega
  have hlo' : (q : ℝ) * 2 ^ 80 + 2 ^ 60 ≤ v * c + 2 ^ 79 := by exact_mod_cast hlo
  have hhi' : (v : ℝ) * c + 2 ^ 79 + 2 ^ 60 ≤ (q + 1) * 2 ^ 80 := by exact_mod_cast hhi
  have hv' : (v : ℝ) ≤ 32768 := by exact_mod_cast hv
  have hdiff : |(v : ℝ) * (c / scaleUnit) - v * y| ≤ 32768 * (1 / 10 ^ 12) := by
    rw [← mul_sub, abs_mul, Nat.abs_cast]
    gcongr
  obtain ⟨hge, hle⟩ := abs_le.mp hdiff
  have hscaled : (v : ℝ) * (c / scaleUnit) = v * c / 2 ^ 80 := by rw [scaleUnit, mul_div_assoc]
  refine ⟨q, ?_, ?_⟩ <;> push_cast <;> norm_num at * <;> linarith

/-- The point of the unit circle after `j` steps of `pi/h`. -/
noncomputable def circlePoint (h j : Nat) : ℂ := Complex.exp ((Real.pi * j / h : ℝ) * Complex.I)

@[simp] theorem circlePoint_re (h j : Nat) : (circlePoint h j).re = Real.cos (Real.pi * j / h) :=
  Complex.exp_ofReal_mul_I_re _

@[simp] theorem circlePoint_im (h j : Nat) : (circlePoint h j).im = Real.sin (Real.pi * j / h) :=
  Complex.exp_ofReal_mul_I_im _

theorem circlePoint_norm (h j : Nat) : ‖circlePoint h j‖ = 1 := Complex.norm_exp_ofReal_mul_I _

theorem circlePoint_succ (h j : Nat) : circlePoint h (j + 1) = circlePoint h j * circlePoint h 1 := by
  rw [circlePoint, circlePoint, circlePoint, ← Complex.exp_add]
  push_cast
  congr 1
  ring

/-- Up to a quarter turn the cosine is not negative. -/
theorem circlePoint_re_nonneg {h j : Nat} (hj : 2 * j ≤ h) : 0 ≤ (circlePoint h j).re := by
  obtain rfl | hpos := Nat.eq_zero_or_pos h
  · simp
  have hpos' : (0 : ℝ) < h := by exact_mod_cast hpos
  have hcast : (2 * j : ℝ) ≤ h := by exact_mod_cast hj
  have hangle : Real.pi * j / h ≤ Real.pi / 2 := by
    rw [div_le_div_iff₀ hpos' (by norm_num)]
    nlinarith [Real.pi_pos]
  have hnonneg : 0 ≤ Real.pi * j / h := by positivity
  rw [circlePoint_re]
  exact Real.cos_nonneg_of_neg_pi_div_two_le_of_le (by linarith [Real.pi_pos]) hangle

theorem circlePoint_im_nonneg {h j : Nat} (hj : j ≤ h) : 0 ≤ (circlePoint h j).im := by
  rw [circlePoint_im, mul_div_assoc]
  exact Real.sin_nonneg_of_nonneg_of_le_pi (by positivity)
    (mul_le_of_le_one_right Real.pi_pos.le (div_le_one_of_le₀ (by exact_mod_cast hj) h.cast_nonneg))

/-- The complex number of two scaled coordinates. -/
noncomputable def scaledPoint (c s : Nat) : ℂ := ⟨c / scaleUnit, s / scaleUnit⟩

@[simp] theorem scaledPoint_re (c s : Nat) : (scaledPoint c s).re = c / scaleUnit := rfl
@[simp] theorem scaledPoint_im (c s : Nat) : (scaledPoint c s).im = s / scaleUnit := rfl

theorem norm_le_norm_of_abs_le {z w : ℂ} (hre : |z.re| ≤ |w.re|) (him : |z.im| ≤ |w.im|) : ‖z‖ ≤ ‖w‖ := by
  rw [Complex.norm_eq_sqrt_sq_add_sq, Complex.norm_eq_sqrt_sq_add_sq]
  exact Real.sqrt_le_sqrt (add_le_add (sq_le_sq.mpr hre) (sq_le_sq.mpr him))

/-- A complex number with a negative real part cut off to 0, as natural numbers cut it off. -/
noncomputable def cutOff (p : ℂ) : ℂ := ⟨max p.re 0, p.im⟩

/-- Nothing is farther after the cut from a number whose real part is not negative. -/
theorem norm_cutOff_sub_le (p : ℂ) {q : ℂ} (hq : 0 ≤ q.re) : ‖cutOff p - q‖ ≤ ‖p - q‖ := by
  refine norm_le_norm_of_abs_le ?_ le_rfl
  have hcut := abs_max_sub_max_le_abs p.re q.re 0
  rwa [max_eq_left hq] at hcut

/-- A subtraction of naturals is the real one, cut off at 0. -/
theorem natSub_cast (m n : Nat) : ((m - n : Nat) : ℝ) = max (m - n : ℝ) 0 := by
  obtain hle | hle := Nat.le_total n m
  · rw [Nat.cast_sub hle, max_eq_left (sub_nonneg.mpr (by exact_mod_cast hle))]
  · rw [Nat.sub_eq_zero_of_le hle, Nat.cast_zero, max_eq_right (sub_nonpos.mpr (by exact_mod_cast hle))]

/-- A product of scaled numbers, brought back to the scale. -/
theorem shiftRight_error {m : Nat} {a : ℝ} (ha : (m : ℝ) = scaleUnit * (scaleUnit * a)) :
    |((m >>> 80 : Nat) : ℝ) / scaleUnit - a| ≤ 1 / scaleUnit := by
  have hdiv := natDiv_error m (2 ^ 80)
  have hcast : ((2 ^ 80 : Nat) : ℝ) = scaleUnit := by
    unfold scaleUnit
    norm_num
  rw [hcast, ha, mul_div_cancel_left₀ _ scaleUnit_pos.ne'] at hdiv
  rw [Nat.shiftRight_eq_div_pow]
  exact div_scaleUnit_error hdiv

/-- One rotation on scaled numbers: the errors of its two factors add up, with one of the rounding. -/
theorem rotation_error {c s x y : Nat} {z Z : ℂ} {e d : ℝ} (hw : ‖scaledPoint c s - z‖ ≤ e)
    (hW : ‖scaledPoint x y - Z‖ ≤ d) (hc : ‖scaledPoint c s‖ ≤ 2) (hZ : ‖Z‖ = 1) (hre : 0 ≤ (z * Z).re) :
    ‖scaledPoint ((c * x - s * y) >>> 80) ((s * x + c * y) >>> 80) - z * Z‖ ≤ e + 2 * d + 2 / scaleUnit := by
  have hU := scaleUnit_pos
  have hproduct : ‖scaledPoint c s * scaledPoint x y - z * Z‖ ≤ e + 2 * d := by
    have hsplit : scaledPoint c s * scaledPoint x y - z * Z
        = (scaledPoint c s - z) * Z + scaledPoint c s * (scaledPoint x y - Z) := by ring
    rw [hsplit]
    refine (norm_add_le _ _).trans ?_
    rw [norm_mul, norm_mul, hZ, mul_one]
    exact add_le_add hw (mul_le_mul hc hW (norm_nonneg _) (by norm_num))
  have hround : ‖scaledPoint ((c * x - s * y) >>> 80) ((s * x + c * y) >>> 80)
      - cutOff (scaledPoint c s * scaledPoint x y)‖ ≤ 2 / scaleUnit := by
    have hrealPart := shiftRight_error (m := c * x - s * y) (a := max (scaledPoint c s * scaledPoint x y).re 0) (by
      rw [natSub_cast, Complex.mul_re, mul_max_of_nonneg _ _ hU.le, mul_max_of_nonneg _ _ hU.le]
      simp
      field_simp)
    have himPart := shiftRight_error (m := s * x + c * y) (a := (scaledPoint c s * scaledPoint x y).im) (by
      rw [Complex.mul_im]
      push_cast [scaledPoint_re, scaledPoint_im]
      field_simp
      ring)
    refine (Complex.norm_le_abs_re_add_abs_im _).trans ((add_le_add hrealPart himPart).trans_eq ?_)
    ring
  calc _ ≤ _ := norm_sub_le_norm_sub_add_norm_sub _ (cutOff (scaledPoint c s * scaledPoint x y)) _
    _ ≤ 2 / scaleUnit + (e + 2 * d) := add_le_add hround ((norm_cutOff_sub_le _ hre).trans hproduct)
    _ = e + 2 * d + 2 / scaleUnit := add_comm ..

/-- A point of the walk is near the point of the circle, the error growing with the number of steps. -/
def WalkNear (h j c s : Nat) : Prop := ‖scaledPoint c s - circlePoint h j‖ ≤ j * (5 * tableError)

theorem walkNear_zero (h : Nat) : WalkNear h 0 (2 ^ 80) 0 := by
  have hstart : scaledPoint (2 ^ 80) 0 = circlePoint h 0 := by
    apply Complex.ext
    · norm_num [scaleUnit]
    · simp
  rw [WalkNear, hstart, sub_self, norm_zero]
  simp

section
variable {h j c s : Nat} (hnear : WalkNear h j c s) (hj : j ≤ 2 ^ 15)
include hnear hj

theorem WalkNear.norm_le : ‖scaledPoint c s - circlePoint h j‖ ≤ 1 / 10 ^ 12 := by
  have hj' : (j : ℝ) ≤ 2 ^ 15 := by exact_mod_cast hj
  calc _ ≤ j * (5 * tableError) := hnear
    _ ≤ 2 ^ 15 * (5 * tableError) := by
      unfold tableError
      gcongr
    _ ≤ 1 / 10 ^ 12 := by
      unfold tableError
      norm_num

theorem WalkNear.re_error : |c / scaleUnit - Real.cos (Real.pi * j / h)| ≤ 1 / 10 ^ 12 := by
  have hre := Complex.abs_re_le_norm (scaledPoint c s - circlePoint h j)
  rw [Complex.sub_re, scaledPoint_re, circlePoint_re] at hre
  exact hre.trans (hnear.norm_le hj)

theorem WalkNear.norm_le_two : ‖scaledPoint c s‖ ≤ 2 := by
  have hle := norm_le_norm_add_norm_sub' (scaledPoint c s) (circlePoint h j)
  rw [circlePoint_norm] at hle
  exact hle.trans ((add_le_add_right (hnear.norm_le hj) 1).trans (by norm_num))

end

/-- A natural number in place of a scaled one of a number that is not negative. -/
theorem NearScaled.toNat {c : Int} {y : ℝ} (h : NearScaled c y) (hy : 0 ≤ y) :
    |(c.toNat : ℝ) / scaleUnit - y| ≤ tableError := by
  have hcast : (c.toNat : ℝ) / scaleUnit = max (c / scaleUnit) 0 := by
    have hmax : (c.toNat : ℝ) = max (c : ℝ) 0 := by exact_mod_cast Int.toNat_eq_max c
    rw [hmax, ← max_div_div_right scaleUnit_pos.le, zero_div]
  have hcut := abs_max_sub_max_le_abs ((c : ℝ) / scaleUnit) y 0
  rw [max_eq_left hy] at hcut
  rw [hcast]
  exact hcut.trans h

/-- The step of the walk, from the model's own sine and cosine. -/
theorem step_near {h : Nat} (hh : 2 ≤ h) :
    ‖scaledPoint (cosScaled 1 (2 * h)).toNat (sinScaled 1 (2 * h)).toNat - circlePoint h 1‖ ≤ 2 * tableError := by
  have hh' : (h : ℝ) ≠ 0 := by exact_mod_cast (show h ≠ 0 by omega)
  have hangle : 2 * Real.pi * (1 : Nat) / (2 * h : Nat) = Real.pi * (1 : Nat) / h := by
    push_cast
    field_simp
  have hcos := cosScaled_near 1 (show 0 < 2 * h by omega)
  have hsin := sinScaled_near 1 (show 0 < 2 * h by omega)
  rw [hangle, ← circlePoint_re] at hcos
  rw [hangle, ← circlePoint_im] at hsin
  refine (Complex.norm_le_abs_re_add_abs_im _).trans ((add_le_add (hcos.toNat (circlePoint_re_nonneg hh))
    (hsin.toNat (circlePoint_im_nonneg (by omega)))).trans_eq ?_)
  ring

theorem WalkNear.succ {h j c s : Nat} (hnear : WalkNear h j c s) (hj : j ≤ 2 ^ 15) (hquarter : 2 * (j + 1) ≤ h) :
    WalkNear h (j + 1) ((c * (cosScaled 1 (2 * h)).toNat - s * (sinScaled 1 (2 * h)).toNat) >>> 80)
      ((s * (cosScaled 1 (2 * h)).toNat + c * (sinScaled 1 (2 * h)).toNat) >>> 80) := by
  have hrotation := rotation_error hnear (step_near (by omega)) (hnear.norm_le_two hj) (circlePoint_norm h 1)
    (circlePoint_succ h j ▸ circlePoint_re_nonneg hquarter)
  have hunit : 2 / scaleUnit ≤ tableError := by
    unfold scaleUnit tableError
    norm_num
  rw [WalkNear, circlePoint_succ]
  refine hrotation.trans ?_
  push_cast
  linarith

/-- A walk that finds every point clear has looked at these cosines. -/
theorem clearOfHalves_of_walkClear {v h n j c s : Nat} (hv : v ≤ 32768)
    (hwalk : walkClear v (cosScaled 1 (2 * h)).toNat (sinScaled 1 (2 * h)).toNat n c s = true)
    (hnear : WalkNear h j c s) (hj : j + n ≤ 2 ^ 15) (hquarter : 2 * (j + n) ≤ h + 2) :
    ∀ i, i < n → ClearOfHalves v (Real.cos (Real.pi * (j + i : Nat) / h)) := by
  induction n generalizing j c s with
  | zero => omega
  | succ n ih =>
    rw [walkClear, Bool.and_eq_true] at hwalk
    obtain ⟨hhere, hrest⟩ := hwalk
    intro i hi
    cases i with
    | zero => exact clearOfHalves_of_clearAt hv hhere (hnear.re_error (by omega))
    | succ i =>
      rw [show j + (i + 1) = j + 1 + i by ring]
      exact ih hrest (hnear.succ (by omega) (by omega)) (by omega) (by omega) i (by omega)

theorem clearOfHalves_of_quarterClear {v h : Nat} (hv : v ≤ 32768) (hh : h ≤ 2 ^ 15)
    (hclear : quarterClear v h = true) {j : Nat} (hj : 2 * j ≤ h) : ClearOfHalves v (Real.cos (Real.pi * j / h)) := by
  have hwalk := clearOfHalves_of_walkClear hv hclear (walkNear_zero h) (by omega) (by omega) j (by omega)
  rwa [Nat.zero_add] at hwalk

/-! ## The whole turn -/

/-- What holds of the first quarter turn holds of every angle: the cosine of another is one of these or its negative. -/
theorem clearOfHalves_of_quarter {v : Int} {h : Nat} (hh : 0 < h)
    (hquarter : ∀ j : Nat, 2 * j ≤ h → ClearOfHalves v (Real.cos (Real.pi * j / h))) (j : Int) :
    ClearOfHalves v (Real.cos (Real.pi * j / h)) := by
  have hh' : (h : ℝ) ≠ 0 := by exact_mod_cast hh.ne'
  obtain ⟨r, hr⟩ : ∃ r : Nat, j % h = r := Int.eq_ofNat_of_zero_le (Int.emod_nonneg _ (by omega))
  have hrlt : r < h := by
    have hlt := Int.emod_lt_of_pos j (show (0 : Int) < h by omega)
    omega
  have hfirstHalf : ClearOfHalves v (Real.cos (Real.pi * r / h)) := by
    obtain hle | hgt := le_or_gt (2 * r) h
    · exact hquarter r hle
    · have hsupplement : Real.cos (Real.pi * r / h) = -Real.cos (Real.pi * (h - r : Nat) / h) := by
        rw [← Real.cos_pi_sub, Nat.cast_sub hrlt.le]
        congr 1
        field_simp
        ring
      rw [hsupplement]
      exact (hquarter _ (by omega)).neg
  have hhalfTurns : Real.cos (Real.pi * j / h) = (-1) ^ (j / h) * Real.cos (Real.pi * r / h) := by
    have hj : (j : ℝ) = h * (j / h : Int) + r := by exact_mod_cast hr ▸ (Int.mul_ediv_add_emod j h).symm
    rw [← Real.cos_add_int_mul_pi, hj]
    congr 1
    field_simp
    ring
  rw [hhalfTurns]
  obtain heven | hodd := Int.even_or_odd (j / h)
  · rwa [heven.neg_one_zpow, one_mul]
  · rw [hodd.neg_one_zpow, neg_one_mul]
    exact hfirstHalf.neg

/-! ## HANN -/

/-- No value of a HANN table is near a boundary, size by size (log 14). -/
theorem quarterClear_hann {b : Nat} (hb : 1 ≤ b) (hb' : b ≤ 15) : quarterClear 16384 (2 ^ b - 1) = true := by
  interval_cases b
  all_goals decide +kernel

/-- R240 for every legal size. -/
theorem hann_eq {p : Params} (hb : 1 ≤ p.log2Fft) (hb' : p.log2Fft ≤ 15) (n : Nat) : hann p n =
    min 32767 (max 0 ⌊32768 * (0.5 * (1 - Real.cos (2 * Real.pi * n / (p.fftSize - 1 : Real)))) + 1 / 2⌋) := by
  have hsize : 2 ≤ p.fftSize := Nat.pow_le_pow_right (n := 2) (by decide) hb
  have hle : p.fftSize ≤ 2 ^ 15 := Nat.pow_le_pow_right (by decide) hb'
  have hcast : (p.fftSize - 1 : ℝ) = (p.fftSize - 1 : Nat) := by
    rw [Nat.cast_sub (by omega), Nat.cast_one]
  have hclear := clearOfHalves_of_quarter (v := 16384) (h := p.fftSize - 1) (by omega)
    (fun _ hj => clearOfHalves_of_quarterClear (by decide) ((Nat.sub_le ..).trans hle) (quarterClear_hann hb hb') hj)
    (2 * n)
  have hangle : Real.pi * ((2 * n : Int) : ℝ) / (p.fftSize - 1 : Nat) = 2 * Real.pi * n / (p.fftSize - 1 : Nat) := by
    push_cast
    ring
  rw [hangle] at hclear
  have hnear := (cosScaled_near n (show 0 < p.fftSize - 1 by omega)).one_sub
  have hround := roundScaled_eq_of_clear (v := 16384) (by decide) hnear hclear.one_sub
  have hhalf (y : ℝ) : 32768 * (0.5 * (1 - y)) = (16384 : Int) * (1 - y) := by
    push_cast
    ring
  rw [hann, clamp, hround, hcast, hhalf]

/-! ## TWID -/

/-- No value of the largest TWID table, and so of any TWID table, is near a boundary (log 14). -/
theorem quarterClear_twid : quarterClear 32768 (2 ^ 14) = true := by decide +kernel

theorem clearOfHalves_twid (j : Int) : ClearOfHalves 32768 (Real.cos (Real.pi * j / (2 ^ 14 : Nat))) :=
  clearOfHalves_of_quarter (by decide)
    (fun _ hj => clearOfHalves_of_quarterClear le_rfl (by decide) quarterClear_twid hj) j

/-- The angles of a TWID table are angles of the largest one. -/
theorem twidAngle_eq {b : Nat} (hb : b ≤ 15) (k : Nat) :
    2 * Real.pi * k / (2 ^ b : Nat) = Real.pi * ((k * 2 ^ (15 - b) : Int) : ℝ) / (2 ^ 14 : Nat) := by
  have hpow : (2 : ℝ) ^ (15 - b) * 2 ^ b = 2 ^ 15 := by rw [← pow_add, Nat.sub_add_cancel hb]
  push_cast
  rw [div_eq_div_iff (by positivity) (by positivity)]
  linear_combination (-Real.pi * k) * hpow

/-- R241 for every legal size. -/
theorem twid_eq {p : Params} (hb : p.log2Fft ≤ 15) (k : Nat) :
    (twid p k).re.toInt =
        max (-32768) (min 32767 ⌊32768 * Real.cos (2 * Real.pi * k / (p.fftSize : Real)) + 1 / 2⌋)
    ∧ (twid p k).im.toInt =
        max (-32768) (min 32767 ⌊-32768 * Real.sin (2 * Real.pi * k / (p.fftSize : Real)) + 1 / 2⌋) := by
  have hsize : 0 < p.fftSize := Nat.two_pow_pos _
  have hangle := twidAngle_eq hb k
  have hcos : ClearOfHalves 32768 (Real.cos (2 * Real.pi * k / (p.fftSize : ℝ))) := by
    rw [Params.fftSize, hangle]
    exact clearOfHalves_twid _
  have hsin : ClearOfHalves 32768 (Real.sin (2 * Real.pi * k / (p.fftSize : ℝ))) := by
    have hquarter : Real.pi / 2 - Real.pi * ((k * 2 ^ (15 - p.log2Fft) : Int) : ℝ) / (2 ^ 14 : Nat)
        = Real.pi * ((2 ^ 13 - k * 2 ^ (15 - p.log2Fft) : Int) : ℝ) / (2 ^ 14 : Nat) := by
      push_cast
      ring
    rw [Params.fftSize, hangle, ← Real.cos_pi_div_two_sub, hquarter]
    exact clearOfHalves_twid _
  have hre := roundScaled_eq_of_clear (v := 32768) (by decide) (cosScaled_near k hsize) hcos
  have him := roundScaled_eq_of_clear (v := -32768) (by decide) (sinScaled_near k hsize) hsin.neg_left
  rw [twid, u16_sat16_toInt, u16_sat16_toInt, hre, him]
  push_cast
  exact ⟨rfl, rfl⟩

/-! ## The statements -/

/-- Settles O56. -/
theorem hannIsTheRoundedRaisedCosine : Obligations.HannIsTheRoundedRaisedCosine :=
  fun _ n hb hb' _ => hann_eq hb (hb'.trans (by decide)) n

/-- Settles O57. -/
theorem twidIsTheRoundedTwiddleFactor : Obligations.TwidIsTheRoundedTwiddleFactor :=
  fun _ k _ hb' _ => twid_eq (hb'.trans (by decide)) k

/-- Settles O60: the two tables for the larger sizes, by the same lemmas. -/
theorem largerTablesAreTheRoundedReals : Obligations.LargerTablesAreTheRoundedReals :=
  fun _ hb hb' => ⟨fun n _ => hann_eq (le_trans (by decide) hb) hb' n, fun k _ => twid_eq hb' k⟩

end Sys2Proof.Machine
end

section
/-! PROOFS. EDGE (R300 to R304): the state after each sample it takes, the same for every order of the engine's steps,
the ADC source's transfers and the arrivals of samples. -/

namespace Sys2Proof.Machine

/-! ## Any order of sampling moves -/

/-- What the moves of a sampling loop keep: `P es xs u` says of the state `u`, with the moves `es` still to come, how it
stands to `xs`, the samples that were on offer or came, if these are all `ok`. -/
structure SamplingInvariant (ok : Half → Prop) (P : List Event → List Half → State → Prop) : Prop where
  sched_eq : ∀ {es xs u}, P es xs u → u.sched = es
  withSched : ∀ {es xs u}, P es xs u → ∀ es', P es' xs { u with sched := es' }
  producerStep : ∀ {es xs u}, P es xs u → P es xs (producerStep u)
  adcTransfer : ∀ {es xs u}, (∀ x ∈ xs, ok x) → P es xs u → P es xs (adcTransfer u)
  offer : ∀ {es xs u}, P es xs u → ∀ v, P es (xs ++ [v]) { u with adcOffered := u.adcOffered ++ [v] }

/-- It holds at the end of every run of sampling moves, with the samples that came added to those on offer. -/
theorem SamplingInvariant.run {ok : Half → Prop} {P : List Event → List Half → State → Prop}
    (hP : SamplingInvariant ok P) {es : List Event} {xs : List Half} {u : State} (h : P es xs u)
    (hsampling : es.all isSampling = true) (hok : ∀ x ∈ xs ++ samplesOffered es, ok x) :
    ∃ t, Host.Core.run Sys2Proof.core es.length u = .next t ∧ P [] (xs ++ samplesOffered es) t := by
  induction es generalizing xs u with
  | nil => exact ⟨u, rfl, by simpa using h⟩
  | cons e es ih =>
    have hu : u.sched = e :: es := hP.sched_eq h
    obtain ⟨he, hes⟩ : isSampling e = true ∧ es.all isSampling = true := by simpa using hsampling
    have hnext := hP.withSched h es
    rw [List.length_cons]
    rcases isSampling_cases he with rfl | rfl | ⟨v, rfl⟩
    · rw [run_agent hu]
      exact ih (hP.producerStep hnext) hes hok
    · rw [run_agent hu]
      exact ih (hP.adcTransfer (fun x hx => hok x (List.mem_append_left _ hx)) hnext) hes hok
    · rw [samplesOffered_offer, List.append_cons] at hok ⊢
      rw [run_offer hu]
      exact ih (hP.offer hnext v) hes hok

/-! ## The trigger sample -/

/-- No sample before number `n` triggers (R301, R302). -/
def NoTriggerBefore (xs : List Half) (n : Nat) : Prop :=
  ∀ j, 1 ≤ j → j < n → triggers (elem xs (j - 1)) (elem xs j) = false

theorem firstTrigger_iff {xs : List Half} {k : Nat} :
    firstTrigger xs k ↔ 1 ≤ k ∧ triggers (elem xs (k - 1)) (elem xs k) = true ∧ NoTriggerBefore xs k := by
  simp [firstTrigger, NoTriggerBefore, triggers, elem, trigOffset, trigGain]

theorem noTriggerBefore_one (xs : List Half) : NoTriggerBefore xs 1 := fun _ h1 h2 => absurd h1 (Nat.not_le.mpr h2)

/-- One more sample that does not trigger. -/
theorem NoTriggerBefore.succ {xs : List Half} {n : Nat} (h : NoTriggerBefore xs (n + 1))
    (hnext : triggers (elem xs n) (elem xs (n + 1)) = false) : NoTriggerBefore xs (n + 2) := fun j h1 h2 => by
  rcases Nat.lt_or_eq_of_le (Nat.le_of_lt_succ h2) with hlt | rfl
  · exact h j h1 hlt
  · exact hnext

/-- Where nothing before `n` triggers, the first trigger sample is not before `n`. -/
theorem NoTriggerBefore.le {xs : List Half} {n k : Nat} (h : NoTriggerBefore xs n) (hk : firstTrigger xs k) :
    n ≤ k := by
  obtain ⟨hpos, htrigger, -⟩ := firstTrigger_iff.mp hk
  by_contra hlt
  exact Bool.false_ne_true ((h k hpos (Nat.not_le.mp hlt)).symm.trans htrigger)

theorem firstTrigger_unique {xs : List Half} {k l : Nat} (hk : firstTrigger xs k) (hl : firstTrigger xs l) : k = l :=
  Nat.le_antisymm ((firstTrigger_iff.mp hk).2.2.le hl) ((firstTrigger_iff.mp hl).2.2.le hk)

theorem elem_append_of_lt {xs : List Half} {i : Nat} (h : i < xs.length) (ys : List Half) :
    elem (xs ++ ys) i = elem xs i := by
  simp [elem, List.getElem?_append_left h]

/-- Later samples trigger nothing before them. -/
theorem NoTriggerBefore.append {xs : List Half} {n : Nat} (h : NoTriggerBefore xs n) (hn : n ≤ xs.length)
    (ys : List Half) : NoTriggerBefore (xs ++ ys) n := fun j h1 h2 => by
  rw [elem_append_of_lt (by omega), elem_append_of_lt (by omega)]
  exact h j h1 h2

theorem firstTrigger_append {xs : List Half} {k : Nat} (h : firstTrigger xs k) (hk : k < xs.length)
    (ys : List Half) : firstTrigger (xs ++ ys) k := by
  obtain ⟨hpos, htrigger, hbefore⟩ := firstTrigger_iff.mp h
  rw [firstTrigger_iff, elem_append_of_lt (by omega), elem_append_of_lt hk]
  exact ⟨hpos, htrigger, hbefore.append hk.le ys⟩

/-! ## The count of samples -/

/-- The count of `n` samples, which stays at `0xFFFF_FFFF` (R300, R303). -/
def satCount (n : Nat) : Word := BitVec.ofNat 32 (min n 0xFFFFFFFF)

theorem satInc_satCount (n : Nat) : satInc (satCount n) = satCount (n + 1) := by
  rcases Nat.lt_or_ge n 0xFFFFFFFF with hlt | hge
  · have hbelow : BitVec.ofNat 32 n ≠ 0xFFFFFFFF := fun h => by
      have hnat : n % 2 ^ 32 = 0xFFFFFFFF := congrArg BitVec.toNat h
      omega
    rw [satCount, satCount, Nat.min_eq_left hlt.le, Nat.min_eq_left hlt, satInc, if_neg hbelow]
    exact (BitVec.ofNat_add n 1).symm
  · rw [satCount, satCount, Nat.min_eq_right hge, Nat.min_eq_right (Nat.le_succ_of_le hge)]
    rfl

/-! ## Where EDGE stands after `n` samples -/

/-- EDGE after the first `n` of the samples `xs`: the `i` last of them stored, the engine at a position (R300). -/
inductive EdgeStage (p : Params) (xs : List Half) : (n i : Nat) → ProducerPos → Prop where
  | first : EdgeStage p xs 0 0 .edgeFirst
  | scan (n : Nat) (h : NoTriggerBefore xs (n + 1)) :
      EdgeStage p xs (n + 1) 0 (.edgeScan (elem xs n) (satCount (n + 1)))
  | fill (k i : Nat) (h : firstTrigger xs k) (hi : i ≤ p.oscSamples) :
      EdgeStage p xs (k + 1 + i) i (.edgeFill i (satCount (k + 1)))

/-- Whether EDGE asks for a sample at a position: it has not found the trigger, or not stored all (R304). -/
def ProducerPos.asksSample (p : Params) : ProducerPos → Bool
  | .edgeFirst | .edgeScan _ _ => true
  | .edgeFill i _ => decide (i < p.oscSamples)
  | _ => false

section
variable {p : Params} {xs : List Half} {n i k : Nat} {pos : ProducerPos}

/-- It asks for `k + 1 + OSC_SAMPLES` samples, sample `k` being the first trigger sample. -/
theorem EdgeStage.asksSample_iff (h : EdgeStage p xs n i pos) (hk : firstTrigger xs k) :
    pos.asksSample p = true ↔ n < k + 1 + p.oscSamples := by
  cases h with
  | first => simp [ProducerPos.asksSample]
  | scan n hbefore =>
    have hle := hbefore.le hk
    simp only [ProducerPos.asksSample, true_iff]
    omega
  | fill l i hl hi =>
    obtain rfl := firstTrigger_unique hk hl
    simp [ProducerPos.asksSample]

/-- Where it asks for no more, it has found the first trigger sample and stored all. -/
theorem EdgeStage.full (h : EdgeStage p xs n i pos) (hfull : pos.asksSample p = false) :
    i = p.oscSamples ∧ ∃ k, firstTrigger xs k ∧ n = k + 1 + p.oscSamples
      ∧ pos = .edgeFill p.oscSamples (satCount (k + 1)) := by
  cases h with
  | first | scan => cases hfull
  | fill k i hk hi =>
    obtain rfl : i = p.oscSamples := Nat.le_antisymm hi (by simpa [ProducerPos.asksSample] using hfull)
    exact ⟨rfl, k, hk, rfl, rfl⟩

/-- Samples that come later change no stage. -/
theorem EdgeStage.append (h : EdgeStage p xs n i pos) (hn : n ≤ xs.length) (ys : List Half) :
    EdgeStage p (xs ++ ys) n i pos := by
  cases h with
  | first => exact .first
  | scan n hbefore =>
    rw [← elem_append_of_lt hn ys]
    exact .scan n (hbefore.append hn ys)
  | fill k i hk hi => exact .fill k i (firstTrigger_append hk (by omega) ys) hi

end

/-! ## The states of EDGE -/

/-- EDGE begun in `c`, with the first `n` of the samples `xs` taken, the last `i` of these stored, and the others still
on offer; `wait` tells whether the engine, at `pos`, is held for the next (R300, R63). -/
def State.edging (c : State) (xs : List Half) (n i : Nat) (pos : ProducerPos) (wait : Bool) : State :=
  { c with
    a := { c.a with phase := .capturing, tsCap := c.a.cycle, adcEn := true, waitAdc := wait, pos := pos }
    mem := { c.mem with raw := (xs.drop (n - i)).take i ++ c.mem.raw.drop i }
    adcOffered := xs.drop n }

/-- The state of EDGE issued in `s`, completed with sample `k` of `xs` as the trigger sample (R300, R303, R325). -/
def State.edgeCaptured (s : State) (xs : List Half) (k : Nat) : State :=
  { s with
    a := { s.a.idled with adcEn := false, tsCap := s.a.cycle, trigPos := satCount (k + 1) }
    mem := { s.mem with raw := (xs.drop (k + 1)).take s.cfg.oscSamples ++ s.mem.raw.drop s.cfg.oscSamples }
    adcOffered := xs.drop (k + 1 + s.cfg.oscSamples) }

/-! ## Its moves -/

section
variable {c : State} {xs : List Half} {n i : Nat} {pos : ProducerPos}

/-- The phase begins with no sample taken. -/
theorem producerStep_offering_edge (hpos : c.a.pos = .starting .capturing) (hedge : c.a.capturesEdge = true)
    (hwait : c.a.waitAdc = false) (xs : List Half) :
    producerStep (c.offering xs) = c.edging xs 0 0 .edgeFirst false := by
  have hstart : producerStep (c.offering xs) = (c.offering xs).startPhase .capturing := producerStep_starting hpos
  rw [hstart, ← hwait]
  simp [State.startPhase, State.offering, State.edging, State.beginPhase, State.setPos, hedge]

/-- The engine asks for the next sample (R47). -/
theorem producerStep_edging_asks (h : EdgeStage c.cfg xs n i pos) (hasks : pos.asksSample c.cfg = true)
    (wait : Bool) : producerStep (c.edging xs n i pos wait) = c.edging xs n i pos true := by
  cases wait with
  | true =>
    apply producerStep_held rfl
    cases h with
    | first => exact .inr (.inl rfl)
    | scan => exact .inr (.inr (.inl ⟨_, _, rfl⟩))
    | fill => exact .inr (.inr (.inr ⟨_, _, rfl⟩))
  | false =>
    cases h with
    | first => exact producerStep_edgeFirst rfl rfl
    | scan => exact producerStep_edgeScan rfl rfl
    | fill => exact producerStep_edgeFill_lt rfl rfl (of_decide_eq_true hasks)

/-- R47, R300: the transfer takes the next sample on offer, ends the hold and brings EDGE to its next stage. -/
theorem adcTransfer_edging (h : EdgeStage c.cfg xs n i pos) (hasks : pos.asksSample c.cfg = true) (hn : n < xs.length)
    (hroom : c.cfg.oscSamples ≤ c.mem.raw.length) (hbits : xs[n].toNat < 2 ^ c.cfg.adcBits) :
    ∃ i' pos', EdgeStage c.cfg xs (n + 1) i' pos'
      ∧ adcTransfer (c.edging xs n i pos true) = c.edging xs (n + 1) i' pos' false := by
  have hoffered : (c.edging xs n i pos true).adcOffered = xs[n] :: xs.drop (n + 1) := List.drop_eq_getElem_cons hn
  have helem : elem xs n = xs[n] := by simp [elem, hn]
  rw [adcTransfer_ready hoffered rfl]
  simp only [State.edging, adcBitsOf_of_lt hbits]
  cases h with
  | first =>
    refine ⟨0, _, .scan 0 (noTriggerBefore_one xs), ?_⟩
    rw [State.takeSample_edgeFirst rfl, helem]
    rfl
  | scan n hbefore =>
    rw [State.takeSample_edgeScan rfl, edgeNext, satInc_satCount, ← helem]
    cases htrigger : triggers (elem xs n) (elem xs (n + 1)) with
    | true =>
      have hk : firstTrigger xs (n + 1) := firstTrigger_iff.mpr ⟨Nat.le_add_left .., htrigger, hbefore⟩
      exact ⟨0, _, .fill (n + 1) 0 hk (Nat.zero_le _), rfl⟩
    | false => exact ⟨0, _, .scan (n + 1) (hbefore.succ htrigger), rfl⟩
  | fill k i hk hi =>
    have hlt : i < c.cfg.oscSamples := of_decide_eq_true hasks
    refine ⟨i + 1, _, .fill k (i + 1) hk hlt, ?_⟩
    have hset := set_take_append_drop (xs := xs.drop (k + 1)) (ys := c.mem.raw) (i := i) (by simp; omega) (by omega)
    rw [List.getElem_drop] at hset
    rw [State.takeSample_edgeFill rfl]
    simp only [State.storeRaw, State.setPos, Nat.add_assoc (k + 1) i 1, Nat.add_sub_cancel, hset]

/-- The last step of EDGE, all samples after the trigger sample being stored: TRIG_POS is written (R300, R303). -/
theorem producerStep_edging_full {s : State} (hwait : s.a.waitAdc = false) (xs : List Half) (k : Nat) :
    producerStep ((s.acceptA 0x08 .capturing).edging xs (k + 1 + s.cfg.oscSamples) s.cfg.oscSamples
      (.edgeFill s.cfg.oscSamples (satCount (k + 1))) false) = s.edgeCaptured xs k := by
  rw [producerStep_edgeFill_ge rfl rfl (Nat.le_refl _)]
  simp [State.edgeEnd, State.finishA, State.endPhase, State.completeA, State.edgeCaptured, State.edging, DomainA.idled,
    State.acceptA, opRun, hwait]

/-! ## A run with the samples on offer -/

/-- Rounds of the sampling loop, up to the last sample EDGE asks for, take one sample each. -/
theorem sampleRounds_edging {k : Nat} (hk : firstTrigger xs k) (hroom : c.cfg.oscSamples ≤ c.mem.raw.length)
    (hbits : ∀ x ∈ xs, x.toNat < 2 ^ c.cfg.adcBits) (hx : k + 1 + c.cfg.oscSamples ≤ xs.length) {m : Nat}
    (h : EdgeStage c.cfg xs n i pos) (hm : n + m ≤ k + 1 + c.cfg.oscSamples) :
    ∃ i' pos', EdgeStage c.cfg xs (n + m) i' pos'
      ∧ sampleRounds m (c.edging xs n i pos false) = c.edging xs (n + m) i' pos' false := by
  induction m generalizing n i pos with
  | zero => exact ⟨i, pos, h, rfl⟩
  | succ m ih =>
    have hasks := (h.asksSample_iff hk).mpr (by omega)
    obtain ⟨i', pos', hnext, htransfer⟩ :=
      adcTransfer_edging h hasks (by omega) hroom (hbits _ (List.getElem_mem (by omega)))
    rw [sampleRounds, producerStep_edging_asks h hasks, htransfer, ← Nat.add_assoc, Nat.add_right_comm]
    exact ih hnext (by omega)

end

/-! ## Any order of moves -/

/-- Where an EDGE issued in `s` can stand after moves of the sampling loop, `xs` being all samples that were on offer
or came: accepted, taking samples, or completed. -/
inductive EdgeProgress (s : State) (xs : List Half) : State → Prop where
  | accepted : EdgeProgress s xs ((s.acceptA 0x08 .capturing).offering xs)
  | taking (n i : Nat) (pos : ProducerPos) (wait : Bool) (hstage : EdgeStage s.cfg xs n i pos) (hn : n ≤ xs.length)
      (hwait : wait = true → pos.asksSample s.cfg = true) :
      EdgeProgress s xs ((s.acceptA 0x08 .capturing).edging xs n i pos wait)
  | completed (k : Nat) (hk : firstTrigger xs k) (hx : k + 1 + s.cfg.oscSamples ≤ xs.length) :
      EdgeProgress s xs (s.edgeCaptured xs k)

section
variable {s u : State} {xs : List Half}

/-- The schedule is no part of the progress. -/
theorem EdgeProgress.withSched (h : EdgeProgress s xs u) (es : List Event) :
    EdgeProgress { s with sched := es } xs { u with sched := es } := by
  cases h with
  | accepted => exact .accepted
  | taking n i pos wait hstage hn hwait => exact .taking (s := { s with sched := es }) n i pos wait hstage hn hwait
  | completed k hk hx => exact .completed (s := { s with sched := es }) k hk hx

theorem EdgeProgress.sched_eq (h : EdgeProgress s xs u) : u.sched = s.sched := by
  cases h <;> rfl

theorem EdgeProgress.producerStep (h : EdgeProgress s xs u) (hwait : s.a.waitAdc = false) :
    EdgeProgress s xs (producerStep u) := by
  cases h with
  | accepted =>
    rw [producerStep_offering_edge (c := s.acceptA 0x08 .capturing) rfl rfl hwait]
    exact .taking 0 0 .edgeFirst false .first (Nat.zero_le _) nofun
  | taking n i pos wait hstage hn hheld =>
    cases hasks : pos.asksSample s.cfg with
    | true =>
      rw [producerStep_edging_asks (c := s.acceptA 0x08 .capturing) hstage hasks]
      exact .taking n i pos true hstage hn fun _ => hasks
    | false =>
      obtain rfl : wait = false := Bool.eq_false_iff.mpr fun hw => Bool.false_ne_true (hasks.symm.trans (hheld hw))
      obtain ⟨rfl, k, hk, rfl, rfl⟩ := hstage.full hasks
      rw [producerStep_edging_full hwait]
      exact .completed k hk hn
  | completed k hk hx =>
    rw [producerStep_idle (s := s.edgeCaptured xs k) rfl]
    exact .completed k hk hx

theorem EdgeProgress.adcTransfer (h : EdgeProgress s xs u) (hwait : s.a.waitAdc = false)
    (hroom : s.cfg.oscSamples ≤ s.mem.raw.length) (hbits : ∀ x ∈ xs, x.toNat < 2 ^ s.cfg.adcBits) :
    EdgeProgress s xs (adcTransfer u) := by
  cases h with
  | accepted =>
    rw [adcTransfer_not_ready (s := (s.acceptA 0x08 .capturing).offering xs) hwait]
    exact .accepted
  | taking n i pos wait hstage hn hheld =>
    cases wait with
    | false =>
      rw [adcTransfer_not_ready (s := (s.acceptA 0x08 .capturing).edging xs n i pos false) rfl]
      exact .taking n i pos false hstage hn hheld
    | true =>
      rcases Nat.lt_or_eq_of_le hn with hmore | rfl
      · obtain ⟨i', pos', hnext, htransfer⟩ := adcTransfer_edging (c := s.acceptA 0x08 .capturing) hstage (hheld rfl)
          hmore hroom (hbits _ (List.getElem_mem hmore))
        rw [htransfer]
        exact .taking (n + 1) i' pos' false hnext hmore nofun
      · rw [adcTransfer_none (s := (s.acceptA 0x08 .capturing).edging xs xs.length i pos true) List.drop_length]
        exact .taking xs.length i pos true hstage hn hheld
  | completed k hk hx =>
    rw [adcTransfer_not_ready (s := s.edgeCaptured xs k) hwait]
    exact .completed k hk hx

/-- What is stored is not changed by samples that come later. -/
theorem take_drop_append {xs : List Half} {n i : Nat} (h : n + i ≤ xs.length) (ys : List Half) :
    ((xs ++ ys).drop n).take i = (xs.drop n).take i := by
  rw [List.drop_append_of_le_length (by omega), List.take_append_of_le_length (by simp; omega)]

/-- A sample that arrives goes behind those on offer. -/
theorem EdgeProgress.offer (h : EdgeProgress s xs u) (v : Half) :
    EdgeProgress s (xs ++ [v]) { u with adcOffered := u.adcOffered ++ [v] } := by
  cases h with
  | accepted => exact .accepted
  | taking n i pos wait hstage hn hwait =>
    have hnext := EdgeProgress.taking n i pos wait (hstage.append hn [v]) (by simp; omega) hwait
    have hi : n - i + i ≤ xs.length := by cases hstage <;> omega
    rwa [State.edging, take_drop_append hi, List.drop_append_of_le_length hn] at hnext
  | completed k hk hx =>
    have hnext := EdgeProgress.completed (s := s) k (firstTrigger_append hk (by omega) [v]) (by simp; omega)
    rwa [State.edgeCaptured, take_drop_append hx, List.drop_append_of_le_length hx] at hnext

/-- The progress of an EDGE is kept by the moves of the sampling loop. -/
theorem edgeProgress_invariant (hwait : s.a.waitAdc = false) (hroom : s.cfg.oscSamples ≤ s.mem.raw.length) :
    SamplingInvariant (fun x => x.toNat < 2 ^ s.cfg.adcBits) fun es => EdgeProgress { s with sched := es } where
  sched_eq h := h.sched_eq
  withSched h := h.withSched
  producerStep h := h.producerStep hwait
  adcTransfer hbits h := h.adcTransfer hwait hroom hbits
  offer h := h.offer

/-- Until it is completed, OP is EDGE's and TRIG_POS as it was (R303). -/
theorem EdgeProgress.of_busy (h : EdgeProgress s xs u) (hbusy : u.a.busy = true) :
    u.a.op = 0x08 ∧ u.a.trigPos = s.a.trigPos := by
  cases h with
  | accepted | taking => exact ⟨rfl, rfl⟩
  | completed => cases hbusy

/-- With BUSY 0 it is completed. -/
theorem EdgeProgress.of_idle (h : EdgeProgress s xs u) (hbusy : u.a.busy = false) :
    ∃ k, firstTrigger xs k ∧ k + 1 + s.cfg.oscSamples ≤ xs.length ∧ u = s.edgeCaptured xs k := by
  cases h with
  | accepted | taking => cases hbusy
  | completed k hk hx => exact ⟨k, hk, hx, rfl⟩

end

theorem execEdge_accepts {s : State} (hready : s.a.ready = true) (hbusy : s.a.busy = false)
    (hmode : s.a.mode = .oscilloscope) : exec .aEdge s = .next (s.acceptA 0x08 .capturing) :=
  congrArg _ (State.issueA_accepts hready hbusy (by simp [hmode, onlyOscilloscope]) ..)

/-- Settles O16: the rounds take the samples on offer one by one up to the stage that asks for no more, and any other
order of the moves makes the progress that ends, with BUSY 0, in the completed EDGE. -/
theorem edgeCapturesAfterTheFirstTrigger : Obligations.EdgeCapturesAfterTheFirstTrigger := by
  refine ⟨fun s xs k hready hbusy hwait hmode hraw hoffered hlen hbits hk => ?_,
    fun s es xs hready hbusy hwait hmode hraw hsampling hxs hbits => ?_⟩
  all_goals have hroom : s.cfg.oscSamples ≤ s.mem.raw.length := hraw ▸ Nat.le_max_right ..
  · have hfirst : producerStep (s.acceptA 0x08 .capturing) =
        (s.acceptA 0x08 .capturing).edging xs 0 0 .edgeFirst false :=
      hoffered ▸ producerStep_offering_edge (c := s.acceptA 0x08 .capturing) rfl rfl hwait s.adcOffered
    have hrounds := fun j => sampleRounds_edging (c := s.acceptA 0x08 .capturing) (m := j) hk hroom hbits hlen .first
    simp only [Nat.zero_add, State.acceptA_cfg] at hrounds
    refine ⟨_, 1, 1, execEdge_accepts hready hbusy hmode, fun j hj => ?_, ?_⟩
    all_goals rw [producerSteps_succ 0 (s.acceptA 0x08 .capturing), producerSteps_zero, hfirst]
    · obtain ⟨_, _, -, hafter⟩ := hrounds j hj
      rw [hafter]
      rfl
    · obtain ⟨_, pos, hstage, hafter⟩ := hrounds _ (Nat.le_refl _)
      have hfull : pos.asksSample s.cfg = false :=
        Bool.eq_false_iff.mpr fun hasks => Nat.lt_irrefl _ ((hstage.asksSample_iff hk).mp hasks)
      obtain ⟨rfl, l, hl, -, rfl⟩ := hstage.full hfull
      obtain rfl := firstTrigger_unique hk hl
      rw [hafter]
      exact producerStep_edging_full hwait xs k
  · have hstart : EdgeProgress { s with sched := es } s.adcOffered { s.acceptA 0x08 .capturing with sched := es } :=
      .accepted (s := { s with sched := es })
    obtain ⟨t, hrun, hend⟩ := (edgeProgress_invariant hwait hroom).run hstart hsampling (hxs ▸ hbits)
    rw [← hxs] at hend
    exact ⟨_, t, execEdge_accepts hready hbusy hmode, hrun, hend.of_busy, hend.of_idle⟩

end Sys2Proof.Machine
end

section
/-! PROOFS. NOP_A and NOP_B (R320, R355); RUN keeps running (R321, R494): no move but reset takes OP 0x0A from
domain A. -/

namespace Sys2Proof.Machine

/-- Settles O21: both arms answer the state itself. -/
theorem nopsChangeNothing : Obligations.NopsChangeNothing := fun _ => ⟨rfl, rfl⟩

/-! ## OP while RUN executes -/

theorem State.finishA_op_of_run {s : State} (h : s.a.op = opRun) (next : ProducerPos) :
    (s.finishA next).a.op = opRun := by
  rw [State.finishA_run h]
  exact h

theorem State.startPhase_op (s : State) (ph : Phase) : (s.startPhase ph).a.op = s.a.op := by cases ph <;> rfl

/-- R200, R323: the end of a capture inside RUN counts it, and goes on. -/
theorem State.captureEnd_run {s : State} (h : s.a.op = opRun) :
    s.captureEnd = { s with
      a := { s.a with
        phase := .idle
        adcEn := false
        frameCnt := nextFrameCnt s.cfg s.a.frameCnt
        pos := .starting (if nextFrameCnt s.cfg s.a.frameCnt = 0 then .processing else .capturing) } } := by
  simp [State.captureEnd, State.endPhase, State.divide, State.setPos, h]

theorem State.publishTest_op (s : State) : s.publishTest.a.op = s.a.op := by
  unfold State.publishTest
  split <;> rfl

/-- Every phase of RUN ends at the next one. -/
theorem producerStep_op_of_run {s : State} (h : s.a.op = opRun) : (producerStep s).a.op = opRun := by
  cases hpos : s.a.pos with
  | idle => rwa [producerStep_idle hpos]
  | starting ph => rwa [producerStep_starting hpos, State.startPhase_op]
  | capture i =>
    simp only [producerStep, hpos]
    split_ifs
    · exact h
    · exact h
    · rwa [State.captureEnd_run h]
  | edgeFirst | edgeScan _ _ =>
    simp only [producerStep, hpos]
    split_ifs <;> exact h
  | edgeFill i cnt =>
    simp only [producerStep, hpos]
    split_ifs
    · exact h
    · exact h
    · exact State.finishA_op_of_run (by exact h) _
  | body =>
    obtain ⟨n, ha⟩ := processBody_a s
    rw [producerStep_body hpos]
    exact State.finishA_op_of_run (by rw [State.endPhase_a_op, ha]; exact h) _
  | publish =>
    simp only [producerStep, hpos]
    split_ifs
    · exact h
    · rwa [State.publishTest_op]
  | publishCopy => rw [producerStep_publishCopy hpos]; exact h
  | publishToggle => rw [producerStep_publishToggle hpos]; exact State.finishA_op_of_run (by exact h) _

theorem State.takeSample_op (s : State) (v : Half) : (s.takeSample v).a.op = s.a.op := by
  unfold State.takeSample
  split <;> rfl

theorem adcTransfer_op (s : State) : (adcTransfer s).a.op = s.a.op := by
  unfold adcTransfer
  split
  · rfl
  · split
    · exact State.takeSample_op ..
    · rfl

theorem consumerStep_a (s : State) : (consumerStep s).a = s.a := by
  cases hpos : s.b.pos with
  | idle => rw [consumerStep_idle hpos]
  | pop =>
    simp only [consumerStep, hpos, State.popTest]
    split_ifs <;> rfl
  | popCopy => rw [consumerStep_popCopy hpos]; rfl
  | popRelease => rw [consumerStep_popRelease hpos]; rfl

/-- While RUN executes, RUNNING and BUSY are 1 and the domain is out of reset (R63, R321). -/
theorem State.Consistent.of_run {s : State} (h : s.Consistent) (hop : s.a.op = opRun) :
    s.a.running = true ∧ s.a.busy = true ∧ s.a.ready = true := by
  have hpos : s.a.pos ≠ .idle := fun hidle => by
    obtain ⟨-, hop0, -⟩ := (DomainA.engineOk_idle hidle).mp h.producer
    exact absurd (hop0.symm.trans hop) (by decide)
  refine ⟨by rw [DomainA.runningOk_iff.mp h.running, hop]; rfl, ?_, h.a_ready_of_pos hpos⟩
  exact Bool.of_not_eq_false fun hbusy => hpos (DomainA.pos_idle_of_not_busy h.producer hbusy)

theorem agentStep_op_of_run {s : State} (h : s.Consistent) (hop : s.a.op = opRun) (g : Agent) :
    (agentStep g s).a.op = opRun := by
  obtain ⟨-, -, hready⟩ := h.of_run hop
  cases g with
  | producerEngine => exact producerStep_op_of_run hop
  | consumerEngine => rwa [agentStep, consumerStep_a]
  | adcSource => rwa [agentStep, adcTransfer_op]
  | reqSynchroniser => rcases reqSyncStep_cases s with ⟨-, hs⟩ | ⟨-, hs⟩ <;> simpa only [agentStep, hs]
  | ackSynchroniser => rcases ackSyncStep_cases s with ⟨-, hs⟩ | ⟨-, hs⟩ <;> simpa only [agentStep, hs]
  | clockA => simp only [agentStep, clockStepA]; split <;> exact hop
  | clockB => simp only [agentStep, clockStepB]; split <;> exact hop
  | resetSynchroniserA => simpa [agentStep, leaveResetA, hready] using hop
  | resetSynchroniserB => simp only [agentStep, leaveResetB]; split <;> exact hop

/-- R446: no command is accepted while RUN executes. -/
theorem exec_op_of_run {i : Instr} {s t : State} (h : s.Consistent) (hop : s.a.op = opRun)
    (hexec : exec i s = .next t) : t.a.op = opRun := by
  obtain ⟨-, hbusy, -⟩ := h.of_run hop
  rcases exec_effect hexec with hA | hB
  · cases hA with
    | registers | store => exact hop
    | accept _ _ hidle => exact absurd (hidle.symm.trans hbusy) Bool.false_ne_true
    | acceptRun => rfl
  · cases hB <;> exact hop

/-- Settles O47: RUNNING says that OP is RUN's, every move but the assertion of reset keeps OP, and the invariant after
the step gives RUNNING and BUSY back. -/
theorem runEndsOnlyAtReset : Obligations.RunEndsOnlyAtReset := by
  intro s t hinv hrunning hstep
  have hs := (State.engineInv_iff s).mp hinv
  have ht := (step_consistent hs hstep).1
  have hop : s.a.op = opRun := by simpa [hrunning] using DomainA.runningOk_iff.mp hs.running
  have hmoved : ∀ es u, ({ s with sched := es, turn := u } : State).Consistent :=
    hs.withEnvironment s.modeStrap s.adcOffered
  have hkept : t.a.op = opRun → t.a.running = true ∧ t.a.busy = true ∧ t.a.op = 0x0A := fun hop' =>
    have ⟨hrun, hbusy, _⟩ := ht.of_run hop'
    ⟨hrun, hbusy, hop'⟩
  rcases step_cases hstep with ⟨-, rfl⟩ | ⟨r, es, i, -, -, hexec⟩ | ⟨g, es, -, rfl⟩ | ⟨v, es, -, rfl⟩
    | ⟨level, es, -, rfl⟩ | ⟨strap, es, -, rfl⟩
  · exact .inl (hkept (agentStep_op_of_run (hmoved s.sched (nextTurn s.turn)) hop s.turn))
  · exact .inl (hkept (exec_op_of_run (hmoved es s.turn) hop hexec))
  · exact .inl (hkept (agentStep_op_of_run (hmoved es s.turn) hop g))
  · exact .inl (hkept hop)
  · cases level with
    | true => exact .inl (hkept hop)
    | false => exact .inr ⟨rfl, rfl⟩
  · exact .inl (hkept hop)

end Sys2Proof.Machine
end

section
/-! PROOFS. RUN's capture and its divider (R322 to R325), and a cycle of RUN beside the host's sequence of commands
(R330). -/

namespace Sys2Proof.Machine

/-! ## The divider -/

theorem execRun_accepts {s : State} (hready : s.a.ready = true) (hbusy : s.a.busy = false) :
    exec .aRun s = .next s.acceptRun :=
  congrArg _ (State.issueA_accepts hready hbusy rfl ..)

theorem nextFrameCnt_toNat {p : Params} (h : p.valid = true) (c : BitVec 16) :
    (nextFrameCnt p c).toNat = (c.toNat + 1) % p.frameRate := by
  obtain ⟨hlo, hhi⟩ : 1 ≤ p.frameRate ∧ p.frameRate ≤ 65535 := by
    have hranges := (params_valid_iff p).mp h
    omega
  have hlt := Nat.mod_lt (c.toNat + 1) hlo
  exact Nat.mod_eq_of_lt (show (c.toNat + 1) % p.frameRate < 65536 by omega)

/-- Settles O22: the rounds store the samples as CAPTURE's do, and the end of the capture counts it. -/
theorem runCountsItsCaptures : Obligations.RunCountsItsCaptures := by
  intro s xs rest hvalid hready hbusy hwait hmode hraw hoffered hlen hbits
  have hroom : s.cfg.rawSamples ≤ s.mem.raw.length := hraw ▸ Nat.le_max_left ..
  have htake : (xs ++ rest).take s.cfg.rawSamples = xs := List.take_left' hlen
  have hdrop : (xs ++ rest).drop s.cfg.rawSamples = rest := List.drop_left' hlen
  have hfirst : producerStep s.acceptRun = s.acceptRun.capturing (xs ++ rest) 0 false :=
    hoffered ▸ producerStep_offering s.acceptRun rfl (by simp [DomainA.capturesEdge, hmode, opRun, opEdge]) hwait
      s.adcOffered
  have hrounds := sampleRounds_capturing (c := s.acceptRun) (xs := xs ++ rest) hroom
    (by simpa using hlen ▸ Nat.le_add_right ..) (by rwa [State.acceptRun_cfg, htake]) s.cfg.rawSamples 0 (by simp)
  have hlast : producerStep (s.acceptRun.capturing (xs ++ rest) s.cfg.rawSamples false) =
      (s.acceptRun.capturing (xs ++ rest) s.cfg.rawSamples false).captureEnd :=
    producerStep_capture_ge rfl rfl (Nat.le_refl _)
  have hcount := nextFrameCnt_toNat hvalid s.a.frameCnt
  have hzero : nextFrameCnt s.cfg s.a.frameCnt = 0 ↔ (nextFrameCnt s.cfg s.a.frameCnt).toNat = 0 :=
    BitVec.toNat_inj.symm
  refine ⟨_, _, execRun_accepts hready hbusy, rfl, rfl, ?_⟩
  rw [hfirst, hrounds, Nat.zero_add, hlast, State.captureEnd_run rfl]
  simp only [State.capturing, htake, hdrop, hwait]
  exact ⟨rfl, hcount, fun h => congrArg ProducerPos.starting (if_pos (hzero.mpr h)),
    fun h => congrArg ProducerPos.starting (if_neg (mt hzero.mp h))⟩

/-! ## RUN beside the host's commands: what R330 compares -/

/-- The state with what R330 excepts set alike. -/
def State.lessRun (s : State) : State := { s with a := s.a.lessRun }

/-- The state with RUN in the place of the command that executes. -/
def State.asRun (s : State) : State := { s with a := { s.a with op := opRun, running := true } }

/-- RUN, about to begin the phase `ph` in `x`, has left what the host's commands have left, completed, in `e`. -/
structure RunBeside (ph : Phase) (x e : State) : Prop where
  pos : x.a.pos = .starting ph
  op : x.a.op = opRun
  running : x.a.running = true
  lessRun : x.lessRun = e.lessRun

/-! ## The sampling loop -/

/-- The positions of the sampling loop, of CAPTURE or of EDGE. -/
def ProducerPos.samples (edge : Bool) : ProducerPos → Bool
  | .capture _ => !edge
  | .edgeFirst | .edgeScan _ _ | .edgeFill _ _ => edge
  | _ => false

/-- The last portion of a CAPTURING phase: EDGE's, with the count of samples, or CAPTURE's. -/
def State.endSampling (s : State) : Option Word → State
  | none => s.captureEnd
  | some cnt => s.edgeEnd cnt

section
variable {s : State} {edge : Bool}

/-- The engine at a position of the sampling loop is held for a sample, or ends the phase; in RUN it does the same as in
the command. -/
theorem producerStep_samples (h : s.a.pos.samples edge = true) :
    (producerStep s = s.holdAdc ∧ producerStep s.asRun = s.holdAdc.asRun)
    ∨ (s.a.waitAdc = false ∧ ∃ cnt : Option Word, cnt.isSome = edge
        ∧ producerStep s = s.endSampling cnt ∧ producerStep s.asRun = s.asRun.endSampling cnt) := by
  cases hwait : s.a.waitAdc with
  | true =>
    have hheld : (∃ i, s.a.pos = .capture i) ∨ s.a.pos = .edgeFirst ∨ (∃ p c, s.a.pos = .edgeScan p c)
        ∨ ∃ i c, s.a.pos = .edgeFill i c := by
      cases hpos : s.a.pos <;> simp_all [ProducerPos.samples]
    have hhold : s.holdAdc = s := by rw [State.holdAdc, ← hwait]
    rw [hhold]
    exact .inl ⟨producerStep_held hwait hheld, producerStep_held (s := s.asRun) hwait hheld⟩
  | false =>
    cases hpos : s.a.pos with
    | capture i =>
      rcases Nat.lt_or_ge i s.cfg.rawSamples with hlt | hge
      · exact .inl ⟨producerStep_capture_lt hpos hwait hlt, producerStep_capture_lt (s := s.asRun) hpos hwait hlt⟩
      · have hedge : edge = false := by simpa [hpos, ProducerPos.samples] using h
        exact .inr ⟨rfl, none, hedge.symm, producerStep_capture_ge hpos hwait hge,
          producerStep_capture_ge (s := s.asRun) hpos hwait hge⟩
    | edgeFirst => exact .inl ⟨producerStep_edgeFirst hpos hwait, producerStep_edgeFirst (s := s.asRun) hpos hwait⟩
    | edgeScan => exact .inl ⟨producerStep_edgeScan hpos hwait, producerStep_edgeScan (s := s.asRun) hpos hwait⟩
    | edgeFill i cnt =>
      rcases Nat.lt_or_ge i s.cfg.oscSamples with hlt | hge
      · exact .inl ⟨producerStep_edgeFill_lt hpos hwait hlt,
          producerStep_edgeFill_lt (s := s.asRun) hpos hwait hlt⟩
      · have hedge : edge = true := by simpa [hpos, ProducerPos.samples] using h
        exact .inr ⟨rfl, some cnt, hedge.symm, producerStep_edgeFill_ge hpos hwait hge,
          producerStep_edgeFill_ge (s := s.asRun) hpos hwait hge⟩
    | _ => simp [hpos, ProducerPos.samples] at h

theorem State.captureEnd_command (h : s.a.op ≠ opRun) :
    s.captureEnd = (({ s with a := { s.a with adcEn := false } } : State).endPhase .capturing).completeA := by
  simp [State.captureEnd, h]

/-- A command other than RUN completes with its sampling loop (R325). -/
theorem State.endSampling_command (h : s.a.op ≠ opRun) (cnt : Option Word) :
    (s.endSampling cnt).a.busy = false ∧ (s.endSampling cnt).a.pos = .idle
      ∧ (s.endSampling cnt).a.waitAdc = s.a.waitAdc ∧ (s.endSampling cnt).besideProducer = s.besideProducer := by
  cases cnt with
  | none =>
    rw [State.endSampling, State.captureEnd_command h]
    exact ⟨rfl, rfl, rfl, rfl⟩
  | some cnt =>
    rw [State.endSampling, State.edgeEnd, State.finishA_command (by exact h)]
    exact ⟨rfl, rfl, rfl, rfl⟩

/-- RUN leaves what the command leaves, and goes on: after EDGE to PUBLISHING, after CAPTURE by its divider. -/
theorem runBeside_endSampling (h : s.a.op ≠ opRun) (cnt : Option Word) :
    RunBeside (if cnt.isSome then .publishing
        else if nextFrameCnt s.cfg s.a.frameCnt = 0 then .processing else .capturing)
      (s.asRun.endSampling cnt) (s.endSampling cnt) := by
  cases cnt with
  | none =>
    rw [State.endSampling, State.endSampling, State.captureEnd_run rfl, State.captureEnd_command h]
    exact ⟨rfl, rfl, rfl, rfl⟩
  | some cnt =>
    rw [State.endSampling, State.endSampling, State.edgeEnd, State.edgeEnd, State.finishA_run rfl,
      State.finishA_command (by exact h)]
    exact ⟨rfl, rfl, rfl, rfl⟩

/-- A sample taken in the sampling loop leaves the engine in it. -/
theorem State.takeSample_samples (h : s.a.pos.samples edge = true) (v : Half) :
    (s.takeSample v).a.pos.samples edge = true ∧ (s.takeSample v).a.op = s.a.op
      ∧ (s.takeSample v).besideProducer = s.besideProducer := by
  cases hpos : s.a.pos with
  | capture i => rw [hpos] at h; rw [State.takeSample_capture hpos]; exact ⟨h, rfl, rfl⟩
  | edgeFirst => rw [hpos] at h; rw [State.takeSample_edgeFirst hpos]; exact ⟨h, rfl, rfl⟩
  | edgeScan prev cnt =>
    rw [hpos] at h
    rw [State.takeSample_edgeScan hpos, edgeNext]
    split <;> exact ⟨h, rfl, rfl⟩
  | edgeFill i cnt => rw [hpos] at h; rw [State.takeSample_edgeFill hpos]; exact ⟨h, rfl, rfl⟩
  | _ => simp [hpos, ProducerPos.samples] at h

theorem State.takeSample_asRun (s : State) (v : Half) : s.asRun.takeSample v = (s.takeSample v).asRun := by
  unfold State.takeSample
  rw [show s.asRun.a.pos = s.a.pos from rfl]
  split <;> rfl

/-- The ADC source's transfer is the same in RUN, and leaves the engine in its loop. -/
theorem adcTransfer_samples (h : s.a.pos.samples edge = true) :
    adcTransfer s.asRun = (adcTransfer s).asRun ∧ (adcTransfer s).a.pos.samples edge = true
      ∧ (adcTransfer s).a.op = s.a.op ∧ (adcTransfer s).besideProducer = s.besideProducer := by
  cases hoffered : s.adcOffered with
  | nil =>
    rw [adcTransfer_none hoffered, adcTransfer_none (s := s.asRun) hoffered]
    exact ⟨rfl, h, rfl, rfl⟩
  | cons v vs =>
    cases hwait : s.a.waitAdc with
    | false =>
      rw [adcTransfer_not_ready hwait, adcTransfer_not_ready (s := s.asRun) hwait]
      exact ⟨rfl, h, rfl, rfl⟩
    | true =>
      rw [adcTransfer_ready hoffered hwait, adcTransfer_ready (s := s.asRun) hoffered hwait]
      exact ⟨State.takeSample_asRun { s with adcOffered := vs, a := { s.a with waitAdc := false } } _,
        State.takeSample_samples (s := { s with adcOffered := vs, a := { s.a with waitAdc := false } }) h _⟩

theorem sampleRounds_succ (n : Nat) (s : State) :
    sampleRounds (n + 1) s = sampleRounds n (adcTransfer (producerStep s)) := rfl

/-- Nothing more happens in rounds after the command has completed. -/
theorem sampleRounds_idle (hpos : s.a.pos = .idle) (hwait : s.a.waitAdc = false) (n : Nat) : sampleRounds n s = s := by
  induction n with
  | zero => rfl
  | succ n ih => rw [sampleRounds_succ, producerStep_idle hpos, adcTransfer_not_ready hwait, ih]

/-- As long as the command has not completed, rounds of its sampling loop are those of RUN. -/
theorem sampleRounds_asRun {n : Nat} (h : s.a.pos.samples edge = true) (hop : s.a.op ≠ opRun)
    (hbusy : (sampleRounds n s).a.busy = true) :
    sampleRounds n s.asRun = (sampleRounds n s).asRun ∧ (sampleRounds n s).a.pos.samples edge = true
      ∧ (sampleRounds n s).a.op ≠ opRun ∧ (sampleRounds n s).besideProducer = s.besideProducer := by
  induction n generalizing s with
  | zero => exact ⟨rfl, h, hop, rfl⟩
  | succ n ih =>
    rw [sampleRounds_succ] at hbusy
    rw [sampleRounds_succ, sampleRounds_succ]
    rcases producerStep_samples h with ⟨hstep, hrun⟩ | ⟨hwait, cnt, -, hend, -⟩
    · obtain ⟨htransfer, hloop, hop', hbeside⟩ := adcTransfer_samples (s := s.holdAdc) h
      rw [hstep] at hbusy
      rw [hstep, hrun, htransfer]
      obtain ⟨hrounds, hpos, hop'', hframe⟩ := ih hloop (hop' ▸ hop) hbusy
      exact ⟨hrounds, hpos, hop'', hframe.trans hbeside⟩
    · obtain ⟨hdone, hidle, hwait', -⟩ := State.endSampling_command hop cnt
      have hfree := hwait'.trans hwait
      rw [hend, adcTransfer_not_ready hfree, sampleRounds_idle hidle hfree, hdone] at hbusy
      cases hbusy

/-- Rounds of CAPTURE, with as many samples on offer, take one each. -/
theorem sampleRounds_capture {i n : Nat} (hpos : s.a.pos = .capture i) (hwait : s.a.waitAdc = false)
    (hi : i + n ≤ s.cfg.rawSamples) (hoffered : n ≤ s.adcOffered.length) :
    (sampleRounds n s).a.pos = .capture (i + n) ∧ (sampleRounds n s).a.waitAdc = false
      ∧ (sampleRounds n s).a.busy = s.a.busy ∧ (sampleRounds n s).a.op = s.a.op := by
  induction n generalizing s i with
  | zero => exact ⟨hpos, hwait, rfl, rfl⟩
  | succ n ih =>
    obtain ⟨v, vs, hcons⟩ := List.exists_cons_of_length_pos (show 0 < s.adcOffered.length by omega)
    rw [hcons, List.length_cons] at hoffered
    rw [sampleRounds_succ, producerStep_capture_lt hpos hwait (by omega), adcTransfer_ready (s := s.holdAdc) hcons rfl,
      State.takeSample_capture (by exact hpos), ← Nat.add_assoc, Nat.add_right_comm]
    exact ih rfl rfl (by exact Nat.add_right_comm i 1 n ▸ hi) (by exact Nat.le_of_succ_le_succ hoffered)

end

/-! ## The phases of a cycle -/

/-- The command accepted in `c`, after `n` rounds of its sampling loop. -/
def State.sampled (c : State) (n : Nat) : State := sampleRounds n (producerStep c)

theorem sampleRounds_settings (n : Nat) (s : State) : (sampleRounds n s).settings = s.settings := by
  induction n generalizing s with
  | zero => rfl
  | succ n ih => rw [sampleRounds_succ, ih, adcTransfer_settings, producerStep_settings]

theorem State.sampled_settings (c : State) (n : Nat) : (c.sampled n).settings = c.settings := by
  rw [State.sampled, sampleRounds_settings, producerStep_settings]

theorem sampleRounds_consistent {s : State} (h : s.Consistent) (n : Nat) : (sampleRounds n s).Consistent := by
  induction n generalizing s with
  | zero => exact h
  | succ n ih => exact ih (adcTransfer_consistent (producerStep_consistent h).1).1

/-- A state of the invariant in which the next command of port A is accepted, and finds the staging buffer free. -/
structure State.TakesCommand (s : State) : Prop where
  consistent : s.Consistent
  ready : s.a.ready = true
  idle : s.a.busy = false
  free : s.a.stagingFree = true

theorem State.TakesCommand.waits {s : State} (h : s.TakesCommand) :
    s.a.waitAdc = false ∧ s.a.waitStaging = false := by
  obtain ⟨-, -, -, -, hadc, hstaging⟩ :=
    (DomainA.engineOk_idle (DomainA.pos_idle_of_not_busy h.consistent.producer h.idle)).mp h.consistent.producer
  exact ⟨hadc, hstaging⟩

theorem State.acceptA_startPhase_samples (s : State) (op : BitVec 8) :
    ((s.acceptA op .capturing).startPhase .capturing).a.pos.samples
      (s.acceptA op .capturing).a.capturesEdge = true := by
  cases hedge : (s.acceptA op .capturing).a.capturesEdge <;> simp [State.startPhase, hedge, ProducerPos.samples]

/-- A CAPTURING phase: where the command accepted in `s` completes after `n` rounds, RUN leaves what it leaves. -/
theorem runBeside_capturing {s : State} {op : BitVec 8} {i : Instr} {n : Nat} (hs : s.TakesCommand) (hop : op ≠ opRun)
    (hexec : exec i s = .next (s.acceptA op .capturing))
    (hedge : s.acceptRun.a.capturesEdge = (s.acceptA op .capturing).a.capturesEdge)
    (hbusy : ((s.acceptA op .capturing).sampled n).a.busy = true)
    (hdone : (producerStep ((s.acceptA op .capturing).sampled n)).a.busy = false) :
    (producerStep ((s.acceptA op .capturing).sampled n)).TakesCommand
    ∧ ∃ cnt, RunBeside (if (s.acceptA op .capturing).a.capturesEdge then .publishing
        else if nextFrameCnt s.cfg cnt = 0 then .processing else .capturing)
      (producerStep (s.acceptRun.sampled n)) (producerStep ((s.acceptA op .capturing).sampled n)) := by
  have hconsistent : (producerStep ((s.acceptA op .capturing).sampled n)).Consistent :=
    (producerStep_consistent (sampleRounds_consistent
      (producerStep_consistent (exec_consistent hs.consistent hexec).1).1 n)).1
  have hstart : producerStep (s.acceptA op .capturing) = (s.acceptA op .capturing).startPhase .capturing :=
    producerStep_starting rfl
  have hrun : producerStep s.acceptRun = ((s.acceptA op .capturing).startPhase .capturing).asRun := by
    rw [producerStep_starting (s := s.acceptRun) rfl, State.startPhase, State.startPhase, hedge]
    rfl
  rw [State.sampled, hstart] at hbusy hdone hconsistent ⊢
  obtain ⟨hrounds, hpos, hop', hbeside⟩ := sampleRounds_asRun (s.acceptA_startPhase_samples op) hop hbusy
  rw [State.sampled, hrun, hrounds]
  rcases producerStep_samples hpos with ⟨hstep, -⟩ | ⟨-, cnt, hcnt, hend, hendRun⟩
  · rw [hstep] at hdone
    exact absurd (hdone.symm.trans hbusy) Bool.false_ne_true
  · obtain ⟨-, -, -, hframe⟩ := State.endSampling_command hop' cnt
    have hkept := hframe.trans hbeside
    simp only [State.besideProducer, Prod.mk.injEq] at hkept
    obtain ⟨-, -, -, hready, hreq, hack, -⟩ := hkept
    have hcfg : (sampleRounds n ((s.acceptA op .capturing).startPhase .capturing)).cfg = s.cfg :=
      congrArg Prod.fst hbeside
    rw [hend] at hconsistent hdone
    rw [hend, hendRun, ← hcnt, ← hcfg]
    exact ⟨⟨hconsistent, hready.trans hs.ready, hdone, by rw [DomainA.stagingFree, hreq, hack]; exact hs.free⟩, _,
      runBeside_endSampling hop' cnt⟩

/-- The state after FILTER issued in `s` (R205). -/
def State.filtered (s : State) : State :=
  { s with
    a := { s.a.processed with filtLen := BitVec.ofNat 16 (filterLength s.cfg) }
    mem := { s.mem with filt := filterBuffer s.cfg s.mem.raw } }

/-- The buffers after the body of SPECTRUM (R275). -/
def Memory.spectrum (p : Params) (m : Memory) : Memory :=
  { m with
    work := fftBuffer p (windowBuffer p m.filt)
    mag := powerBuffer p (fftBuffer p (windowBuffer p m.filt))
    db := dbBuffer p (powerBuffer p (fftBuffer p (windowBuffer p m.filt))) }

theorem State.spectrumBody_eq (s : State) : s.spectrumBody = { s with mem := s.mem.spectrum s.cfg } := rfl

/-- The state after FILTER and SPECTRUM issued in `s`. -/
def State.analysed (s : State) : State := s.filtered.processedWith (s.filtered.mem.spectrum s.cfg)

theorem filter_completes (s : State) : producerCompletes (s.acceptA 0x02 .processing) s.filtered :=
  producerCompletes_processing (by decide) rfl

/-- The PROCESSING phase of RUN leaves what FILTER and SPECTRUM leave (R322). -/
theorem runBeside_processing {x e : State} (h : RunBeside .processing x e) :
    RunBeside .publishing (producerSteps 2 x) e.analysed := by
  have hstart : producerStep x = (x.beginPhase .processing).setPos .body := producerStep_starting h.pos
  have hbody : ((x.beginPhase .processing).setPos .body).processBody =
      ((x.beginPhase .processing).setPos .body).filterBody.spectrumBody := by
    rw [State.processBody, show ((x.beginPhase .processing).setPos .body).a.op = opRun from h.op]
    rfl
  have hx : producerSteps 2 x = { x with
      a := { x.a with
        phase := .idle
        tsProcS := x.a.cycle
        tsProcE := x.a.cycle
        filtLen := BitVec.ofNat 16 (filterLength x.cfg)
        pos := .starting .publishing }
      mem := { x.mem with filt := filterBuffer x.cfg x.mem.raw }.spectrum x.cfg } := by
    rw [producerSteps_succ, producerSteps_succ, producerSteps_zero, hstart, producerStep_body rfl, State.processEnd,
      hbody, State.finishA_run (by exact h.op), State.spectrumBody_eq]
    simp [State.filterBody, State.beginPhase, State.endPhase, State.setPos]
  have hanalysed : e.analysed.lessRun = e.lessRun.analysed.lessRun := rfl
  rw [hx]
  refine ⟨rfl, h.op, h.running, ?_⟩
  rw [hanalysed, ← h.lessRun]
  rfl

/-- The state `s` with PUBLISH's frame and token sent, and its phase ended (R350). -/
def State.published (s : State) : State :=
  { s with
    a := { s.a with phase := .idle, req := !s.a.req, pubCnt := s.a.pubCnt + 1 }
    mem := { s.mem with staging := copyFront (s.cfg.frameLen s.a.mode) s.frameSource s.mem.staging } }

theorem State.finishA_setPos (s : State) (pos next : ProducerPos) :
    (s.setPos pos).finishA next = s.finishA next := by
  unfold State.finishA
  rw [State.setPos_a_op]
  split <;> rfl

/-- A PUBLISHING phase with the staging buffer free: its four steps. -/
theorem producerSteps_publishing {s : State} (hpos : s.a.pos = .starting .publishing) (hwait : s.a.waitStaging = false)
    (hfree : s.a.stagingFree = true) : producerSteps 4 s = s.published.finishA (.starting .capturing) := by
  have hstart : producerStep s = (s.beginPhase .publishing).setPos .publish := producerStep_starting hpos
  have htest : producerStep ((s.beginPhase .publishing).setPos .publish) =
      (s.beginPhase .publishing).setPos .publishCopy := by
    rw [producerStep_publish (s := (s.beginPhase .publishing).setPos .publish) rfl hwait, State.publishTest,
      if_pos (by exact hfree)]
    rfl
  have hcopy : producerStep ((s.beginPhase .publishing).setPos .publishCopy) =
      ((s.beginPhase .publishing).setPos .publishCopy).publishCopy := producerStep_publishCopy rfl
  have hend : producerStep ((s.beginPhase .publishing).setPos .publishCopy).publishCopy =
      ((s.beginPhase .publishing).setPos .publishCopy).publishCopy.publishEnd := producerStep_publishToggle rfl
  calc producerSteps 4 s
      _ = ((s.beginPhase .publishing).setPos .publishCopy).publishCopy.publishEnd := by
        simp only [producerSteps_succ, producerSteps_zero, hstart, htest, hcopy, hend]
      _ = (s.published.setPos .publishToggle).finishA (.starting .capturing) := rfl
      _ = s.published.finishA (.starting .capturing) := State.finishA_setPos ..

/-- The PUBLISHING phase of RUN leaves what PUBLISH leaves. -/
theorem runBeside_publishing {x e : State} (h : RunBeside .publishing x e) (hwait : e.a.waitStaging = false)
    (hfree : e.a.stagingFree = true) :
    ∃ u, producerCompletes (e.acceptA 0x09 .publishing) u ∧ RunBeside .capturing (producerSteps 4 x) u := by
  have hx : producerSteps 4 x = x.published.setPos (.starting .capturing) := by
    rw [producerSteps_publishing h.pos ((congrArg (·.a.waitStaging) h.lessRun).trans hwait)
      ((congrArg (·.a.stagingFree) h.lessRun).trans hfree), State.finishA_run (by exact h.op)]
  have he : producerSteps 4 (e.acceptA 0x09 .publishing) = (e.acceptA 0x09 .publishing).published.completeA := by
    rw [producerSteps_publishing (s := e.acceptA 0x09 .publishing) rfl hwait hfree, State.finishA_command]
    exact (by decide : (0x09 : BitVec 8) ≠ opRun)
  refine ⟨_, ⟨rfl, 4, he⟩, ?_⟩
  rw [hx]
  refine ⟨rfl, h.op, h.running, ?_⟩
  calc (x.published.setPos (.starting .capturing)).lessRun
      _ = x.lessRun.published := rfl
      _ = e.lessRun.published := by rw [h.lessRun]
      _ = (e.acceptA 0x09 .publishing).published.completeA.lessRun := rfl

theorem execFilter_accepts {s : State} (hready : s.a.ready = true) (hbusy : s.a.busy = false)
    (hmode : s.a.mode = .spectrum) : exec .aFilter s = .next (s.acceptA 0x02 .processing) :=
  congrArg _ (issueA_accepts_spectrum hready hbusy hmode ..)

theorem execPublish_accepts {s : State} (hready : s.a.ready = true) (hbusy : s.a.busy = false) :
    exec .aPublish s = .next (s.acceptA 0x09 .publishing) :=
  congrArg _ (State.issueA_accepts hready hbusy rfl ..)

/-- What R330 asks of the states a cycle of RUN and the host's commands leave. -/
theorem RunBeside.agrees {ph : Phase} {t u : State} (h : RunBeside ph t u) :
    t.mem = u.mem ∧ t.b = u.b ∧ t.adcOffered = u.adcOffered ∧ t.a.lessRun = u.a.lessRun ∧ t.a.running = true :=
  ⟨congrArg (·.mem) h.lessRun, congrArg (·.b) h.lessRun, congrArg (·.adcOffered) h.lessRun,
    congrArg (·.a) h.lessRun, h.running⟩

/-- CAPTURE issued with enough samples on offer is busy for `RAW_SAMPLES` rounds, and completes by the next step. -/
theorem capture_completes {s : State} (hwait : s.a.waitAdc = false)
    (hoffered : s.cfg.rawSamples ≤ s.adcOffered.length) :
    ((s.acceptA 0x01 .capturing).sampled s.cfg.rawSamples).a.busy = true
    ∧ (producerStep ((s.acceptA 0x01 .capturing).sampled s.cfg.rawSamples)).a.busy = false := by
  have hstart : producerStep (s.acceptA 0x01 .capturing) = (s.acceptA 0x01 .capturing).startPhase .capturing :=
    producerStep_starting rfl
  obtain ⟨hcfg, -⟩ := State.settings_eq_iff.mp ((s.acceptA 0x01 .capturing).sampled_settings s.cfg.rawSamples)
  rw [State.sampled, hstart] at hcfg ⊢
  obtain ⟨hpos, hwait', hbusy, hop⟩ := sampleRounds_capture (n := s.cfg.rawSamples)
    (s := (s.acceptA 0x01 .capturing).startPhase .capturing) (i := 0) rfl hwait (by simp [State.startPhase]) hoffered
  refine ⟨hbusy, ?_⟩
  rw [producerStep_capture_ge hpos hwait' (by rw [hcfg]; simp),
    State.captureEnd_command (by rw [hop]; exact (by decide : (0x01 : BitVec 8) ≠ opRun))]
  rfl

/-- Settles O23: phase by phase, RUN leaves what the host's commands leave, but for what R330 excepts. -/
theorem runCycleEqualsTheHostSequence : Obligations.RunCycleEqualsTheHostSequence := by
  refine ⟨fun s _ hrate hinv _ hready hbusy hmode hack hoffered => ?_,
    fun s n hinv _ hready hbusy hmode hack c1 hc1 hsampling hdone => ?_⟩
  all_goals
    have hs : s.TakesCommand :=
      ⟨(State.engineInv_iff s).mp hinv, hready, hbusy, by simp [DomainA.stagingFree, hack]⟩
  · obtain ⟨hsampling, hdone⟩ := capture_completes hs.waits.1 hoffered
    have hcapture := execCapture_accepts hready hbusy hmode
    obtain ⟨hc, cnt, hcaptured⟩ := runBeside_capturing hs (by decide) hcapture
      (by simp [DomainA.capturesEdge, hmode, opRun, opEdge]) hsampling hdone
    have hzero : nextFrameCnt s.cfg cnt = 0 := by simp [nextFrameCnt, hrate, Nat.mod_one]
    rw [if_neg (by exact Bool.false_ne_true), if_pos hzero] at hcaptured
    obtain ⟨-, hmode', -⟩ := State.settings_eq_iff.mp
      ((producerStep_settings _).trans ((s.acceptA 0x01 .capturing).sampled_settings s.cfg.rawSamples))
    have hspectrum := hmode'.trans hmode
    obtain ⟨u, hu, hpublished⟩ := runBeside_publishing (runBeside_processing hcaptured) hc.waits.2 hc.free
    exact ⟨_, _, _, _, _, _, _, _, u, _, 1, 1, 7, execRun_accepts hready hbusy, hcapture, ⟨hdone, 1, rfl⟩,
      execFilter_accepts hc.ready hc.idle hspectrum, filter_completes _,
      execSpectrum_accepts hc.ready rfl hspectrum, spectrum_completes _,
      execPublish_accepts hc.ready rfl, hu, rfl, hpublished.agrees⟩
  · have haccepts := execEdge_accepts hready hbusy hmode
    obtain rfl : s.acceptA 0x08 .capturing = c1 := by simpa [haccepts] using hc1
    obtain ⟨he, _, hcaptured⟩ := runBeside_capturing hs (by decide) haccepts
      (by simp [DomainA.capturesEdge, hmode, opRun, opEdge]) hsampling hdone
    rw [if_pos (by rfl)] at hcaptured
    obtain ⟨u, hu, hpublished⟩ := runBeside_publishing hcaptured he.waits.2 he.free
    exact ⟨_, _, execRun_accepts hready hbusy, execPublish_accepts he.ready he.idle, _, u, 5, rfl, hu,
      hpublished.agrees⟩

end Sys2Proof.Machine
end

section
/-! PROOFS. The frame channel: SWAP (R361), and PUBLISH (R350 to R353) and POP (R356 to R359) run to their ends. -/

namespace Sys2Proof.Machine

/-! ## SWAP -/

theorem State.issueB_refuses_busy {s : State} (hready : s.b.ready = true) (hbusy : s.b.busy = true) (op : BitVec 8)
    (freshNeeded : Bool) (accepted : State) : s.issueB op freshNeeded accepted = s.raise .b .busy op := by
  simp [State.issueB, hready, hbusy]

theorem State.issueB_refuses_seq {s : State} (hready : s.b.ready = true) (hbusy : s.b.busy = false) {freshNeeded : Bool}
    (hfresh : s.b.fresh ≠ freshNeeded) (op : BitVec 8) (accepted : State) :
    s.issueB op freshNeeded accepted = s.raise .b .seq op := by
  simp [State.issueB, hready, hbusy, hfresh]

/-- Settles O20, by the three answers of R446 on port B. -/
theorem swapTogglesTheActiveSlot : Obligations.SwapTogglesTheActiveSlot := fun _ hready =>
  ⟨fun hbusy hfresh => congrArg _ (State.issueB_accepts hready hbusy hfresh ..),
    fun hbusy => congrArg _ (State.issueB_refuses_busy hready hbusy ..),
    fun hbusy hstale => congrArg _ (State.issueB_refuses_seq hready hbusy (by simp [hstale]) ..)⟩

/-! ## PUBLISH -/

/-- The state after PUBLISH issued in `s` with the staging buffer free (R350). -/
def State.publishDone (s : State) : State := (s.acceptA 0x09 .publishing).published.completeA

theorem publish_completes {s : State} (hwait : s.a.waitStaging = false) (hfree : s.a.stagingFree = true) :
    producerCompletes (s.acceptA 0x09 .publishing) s.publishDone := by
  refine ⟨rfl, 4, ?_⟩
  rw [producerSteps_publishing (s := s.acceptA 0x09 .publishing) rfl hwait hfree, State.finishA_command]
  · rfl
  · exact (by decide : (0x09 : BitVec 8) ≠ opRun)

/-- A frame fits the buffers that carry it (R13, R87, R88). -/
theorem frameLen_le_slotCap (p : Params) (m : Mode) : p.frameLen m ≤ p.slotCap := by
  cases m
  · exact Nat.le_max_left ..
  · exact Nat.le_max_right ..

/-- Settles O17: PUBLISH's four steps copy the front of the frame's source over STAGING. -/
theorem publishSendsTheFrameAndTheToken : Obligations.PublishSendsTheFrameAndTheToken := by
  intro s hready hbusy hwait hack hwf
  obtain ⟨-, -, -, -, -, -, hstaging, -, -⟩ := (Memory.wf_iff ..).mp hwf
  refine ⟨_, s.publishDone, execPublish_accepts hready hbusy,
    publish_completes hwait (by simp [DomainA.stagingFree, hack]), rfl, (copyFront_length ..).trans hstaging,
    fun i hi => ?_, fun i hi => elem_copyFront_ge _ _ hi⟩
  have hroom : i < s.mem.staging.length := by
    have := frameLen_le_slotCap s.cfg s.a.mode
    omega
  calc elem s.publishDone.mem.staging i
      _ = elem s.frameSource i := elem_copyFront_lt _ _ hi hroom
      _ = _ := by unfold State.frameSource; cases s.a.mode <;> rfl

/-! ## POP -/

@[simp] theorem consumerSteps_zero (s : State) : consumerSteps 0 s = s := rfl

@[simp] theorem consumerSteps_succ (n : Nat) (s : State) :
    consumerSteps (n + 1) s = consumerSteps n (consumerStep s) := rfl

theorem execPop_accepts {s : State} (hready : s.b.ready = true) (hbusy : s.b.busy = false) (hstale : s.b.fresh = false) :
    exec .bPop s = .next s.acceptPop :=
  congrArg _ (State.issueB_accepts hready hbusy hstale ..)

/-- POP's copy-in of a frame as long as `FRAME_LEN`, element by element (R356, R358). -/
theorem State.popCopy_elem_lt {s : State} (hwf : s.mem.wf s.cfg = true) {i : Nat} (hi : i < s.cfg.frameLen s.b.mode) :
    elem (s.popCopy.mem.slot (!s.b.active)) i = elem s.mem.staging i := by
  have hroom : i < (s.mem.slot (!s.b.active)).length := by
    have := frameLen_le_slotCap s.cfg s.b.mode
    have := Memory.slot_length hwf (!s.b.active)
    omega
  rw [State.popCopy, Memory.slot_setSlot_self]
  exact elem_copyFront_lt _ _ hi hroom

theorem State.popCopy_elem_ge {s : State} {i : Nat} (hi : s.cfg.frameLen s.b.mode ≤ i) :
    elem (s.popCopy.mem.slot (!s.b.active)) i = elem (s.mem.slot (!s.b.active)) i := by
  rw [State.popCopy, Memory.slot_setSlot_self]
  exact elem_copyFront_ge _ _ hi

/-- The state after POP issued in `s` with a token pending (R356). -/
def State.popDone (s : State) : State := s.acceptPop.popCopy.popEnd

theorem pop_completes {s : State} (hwait : s.b.waitToken = false) (hpending : s.b.tokenPending = true) :
    consumerCompletes s.acceptPop s.popDone := by
  have htest : consumerStep s.acceptPop = s.acceptPop.setPosB .popCopy := by
    rw [consumerStep_pop (s := s.acceptPop) rfl hwait]
    exact if_pos hpending
  exact ⟨rfl, 3, by simp only [consumerSteps_succ, htest]; rfl⟩

/-- Settles O18: POP's three steps copy the front of STAGING over the slot ACTIVE does not name. -/
theorem popCopiesTheFrameIn : Obligations.PopCopiesTheFrameIn := by
  intro s hready hbusy hwait hstale hpending hwf
  refine ⟨_, s.popDone, execPop_accepts hready hbusy hstale,
    pop_completes hwait (by simpa [DomainB.tokenPending] using hpending), ?_,
    fun i hi => State.popCopy_elem_lt (s := s.acceptPop) hwf hi, fun i hi => State.popCopy_elem_ge (s := s.acceptPop) hi⟩
  have hmem : s.popDone.mem = s.mem.setSlot (!s.b.active)
      (copyFront (s.cfg.frameLen s.b.mode) s.mem.staging (s.mem.slot (!s.b.active))) := rfl
  rw [hmem, Memory.slot_setSlot_self]
  rfl

end Sys2Proof.Machine
end

section
/-! PROOFS. STAGING between PUBLISH and POP (R372 to R374): what writes it, what brings POP to its release, and the
published frame followed from the token on. -/

namespace Sys2Proof.Machine

/-! ## What writes STAGING -/

@[simp] theorem State.processBody_staging (s : State) : s.processBody.mem.staging = s.mem.staging := by
  unfold State.processBody
  split <;> rfl

@[simp] theorem windowStore_staging (p : Params) (m : Memory) (sel : BitVec 4) (i : Nat) (v : Word) :
    (windowStore p m sel i v).staging = m.staging := by
  unfold windowStore
  split <;> rfl

/-- Of the writes only PUBLISH's copy and domain A's reset reach STAGING. -/
theorem BufferWrite.staging_cases {s t : State} (hwrite : BufferWrite s t) :
    t.mem.staging = s.mem.staging ∨ s.a.pos = .publishCopy ∨ s.a.ready = false := by
  cases hwrite with
  | none hmem => exact .inl (by rw [hmem])
  | window v hmem => exact .inl (by rw [hmem, windowStore_staging])
  | sample i v hmem => exact .inl (by rw [hmem]; rfl)
  | process hmem => exact .inl (by rw [hmem, State.processBody_staging])
  | publish hpos _ => exact .inr (.inl hpos)
  | pop _ _ hmem => exact .inl (by rw [hmem, State.popCopy, Memory.setSlot_staging])
  | resetA hready _ => exact .inr (.inr hready)
  | resetB _ hmem => exact .inl (by rw [hmem]; rfl)

theorem step_staging_cases {s t : State} (h : step s = .next t) :
    t.mem.staging = s.mem.staging ∨ s.a.pos = .publishCopy ∨ s.a.ready = false :=
  have ⟨_, _, hwrite⟩ := step_bufferWrite h
  hwrite.staging_cases

/-- Settles O43, by the writes of STAGING: at PUBLISH's copy and at POP's the phase is that of the engine's position. -/
theorem stagingIsStableWhileTheConsumerMayRead : Obligations.StagingIsStableWhileTheConsumerMayRead := by
  intro s t hinv hstep
  have hs := (State.engineInv_iff s).mp hinv
  refine ⟨fun hchanged => ?_, fun hpos => ?_⟩
  · refine (step_staging_cases hstep).resolve_left hchanged |>.imp (fun hpos => ?_) id
    obtain ⟨-, -, -, hwait, hfree⟩ := (DomainA.engineOk_publishCopy hpos).mp hs.producer
    exact ⟨hs.handshake_of_stagingFree hfree, hpos, hwait⟩
  · obtain ⟨-, -, -, -, hpending⟩ := (DomainB.engineOk_popCopy hpos).mp hs.consumer
    exact hs.handshake_of_tokenPending hpending

/-! ## What brings POP to its release -/

/-- Between `s` and `t`, where POP stands at its release, it stood there already or made its copy. -/
def ReachesRelease (s t : State) : Prop :=
  t.b.pos = .popRelease → s.b.pos = .popRelease ∨ (s.b.pos = .popCopy ∧ t.mem = s.popCopy.mem)

theorem ReachesRelease.of_pos_eq {s t : State} (h : t.b.pos = s.b.pos) : ReachesRelease s t :=
  fun hpos => .inl (h.symm.trans hpos)

theorem consumerStep_reachesRelease (s : State) : ReachesRelease s (consumerStep s) := by
  intro hrelease
  cases hpos : s.b.pos with
  | idle => rw [consumerStep_idle hpos, hpos] at hrelease; cases hrelease
  | pop =>
    refine absurd hrelease ?_
    simp only [consumerStep, hpos, State.popTest]
    split_ifs <;> simp [hpos]
  | popCopy => exact .inr ⟨rfl, by rw [consumerStep_popCopy hpos]⟩
  | popRelease => exact .inl rfl

theorem agentStep_reachesRelease (g : Agent) (s : State) : ReachesRelease s (agentStep g s) := by
  cases g with
  | producerEngine => exact .of_pos_eq (congrArg DomainB.pos (producerStep_b s))
  | consumerEngine => exact consumerStep_reachesRelease s
  | adcSource => exact .of_pos_eq (congrArg DomainB.pos (adcTransfer_b s))
  | reqSynchroniser =>
    refine .of_pos_eq ?_
    rcases reqSyncStep_cases s with ⟨-, hs⟩ | ⟨-, hs⟩ <;> rw [agentStep, hs]
  | ackSynchroniser =>
    refine .of_pos_eq ?_
    rcases ackSyncStep_cases s with ⟨-, hs⟩ | ⟨-, hs⟩ <;> rw [agentStep, hs]
  | clockA => refine .of_pos_eq ?_; simp only [agentStep, clockStepA]; split <;> rfl
  | clockB => refine .of_pos_eq ?_; simp only [agentStep, clockStepB]; split <;> rfl
  | resetSynchroniserA => refine .of_pos_eq ?_; simp only [agentStep, leaveResetA]; split <;> rfl
  | resetSynchroniserB =>
    rcases leaveResetB_cases s with hs | ⟨-, -, -, hb⟩
    · exact .of_pos_eq (congrArg (·.b.pos) hs)
    · intro hrelease
      rw [agentStep, hb] at hrelease
      cases hrelease

theorem exec_reachesRelease {i : Instr} {s t : State} (h : exec i s = .next t) : ReachesRelease s t := by
  rcases exec_effect h with hA | hB
  · cases hA <;> exact .of_pos_eq rfl
  · cases hB with
    | registers | swap => exact .of_pos_eq rfl
    | pop => exact nofun

theorem step_reachesRelease {s t : State} (h : step s = .next t) : ReachesRelease s t := by
  rcases step_cases h with ⟨-, rfl⟩ | ⟨r, es, i, -, -, hexec⟩ | ⟨g, es, -, rfl⟩ | ⟨v, es, -, rfl⟩
    | ⟨level, es, -, rfl⟩ | ⟨level, es, -, rfl⟩
  · exact agentStep_reachesRelease s.turn { s with turn := nextTurn s.turn }
  · exact exec_reachesRelease (s := { s with sched := es }) hexec
  · exact agentStep_reachesRelease g { s with sched := es }
  · exact .of_pos_eq rfl
  · cases level with
    | true => exact .of_pos_eq rfl
    | false => exact nofun
  · exact .of_pos_eq rfl

/-! ## Runs -/

theorem run_succ_iff {n : Nat} {s t : State} :
    Host.Core.run Sys2Proof.core (n + 1) s = .next t
      ↔ ∃ u, step s = .next u ∧ Host.Core.run Sys2Proof.core n u = .next t := by
  simp only [Host.Core.run, Sys2Proof.core]
  cases step s <;> simp

/-- What every step from a state with `Q` keeps holds at the end of a run whose states but the last have `Q`. -/
theorem run_keeps {P Q : State → Prop} (hstep : ∀ u v, P u → Q u → step u = .next v → P v) {n : Nat} {s t : State}
    (hs : P s) (hrun : Host.Core.run Sys2Proof.core n s = .next t)
    (hbefore : ∀ m u, m < n → Host.Core.run Sys2Proof.core m s = .next u → P u → Q u) : P t := by
  induction n generalizing s with
  | zero => cases hrun; exact hs
  | succ n ih =>
    obtain ⟨u, hfirst, hrest⟩ := run_succ_iff.mp hrun
    have hQ : Q s := hbefore 0 s (Nat.zero_lt_succ n) rfl hs
    exact ih (hstep s u hs hQ hfirst) hrest fun m v hm hv =>
      hbefore (m + 1) v (Nat.succ_lt_succ hm) (run_succ_iff.mpr ⟨u, hfirst, hv⟩)

/-! ## The published frame -/

/-- In `u` the frame that `s` holds in STAGING is there still, and a POP that stands at its release has copied it
(R373, R374). -/
structure CarriesFrame (s u : State) : Prop where
  consistent : u.Consistent
  wf : u.mem.wf u.cfg = true
  cfg : u.cfg = s.cfg
  mode : u.b.mode = s.a.mode
  staging : u.mem.staging = s.mem.staging
  popped : u.b.pos = .popRelease →
    ∀ i, i < s.cfg.frameLen s.a.mode → elem (u.mem.slot (!u.b.active)) i = elem s.mem.staging i

/-- Both domains run, and PUBLISH is not about to write STAGING. -/
def State.stagingKept (u : State) : Prop := u.a.ready = true ∧ u.b.ready = true ∧ u.a.pos ≠ .publishCopy

/-- ACTIVE is kept while a POP executes, in a step that leaves domain B out of reset (R361). -/
theorem step_active_of_busy {u v : State} (hstep : step u = .next v) (hbusy : u.b.busy = true)
    (hready : u.b.ready = true) (hready' : v.b.ready = true) : v.b.active = u.b.active := by
  by_contra hactive
  rcases activeChangesOnlyBySwap u v hstep hactive with ⟨-, -, -, -, -, -, hidle, -⟩ | ⟨hreset, -⟩ | ⟨hreset, -⟩
  · exact absurd (hbusy.symm.trans hidle) (by decide)
  · exact absurd (hready'.symm.trans hreset) (by decide)
  · exact absurd (hready.symm.trans hreset) (by decide)

/-- The slots are kept while a POP stands at its release (R358). -/
theorem step_slot_at_popRelease {u v : State} (h : u.Consistent) (hstep : step u = .next v)
    (hpos : u.b.pos = .popRelease) (hready : u.b.ready = true) (n : Bool) : v.mem.slot n = u.mem.slot n := by
  by_contra hslot
  rcases slotsChangeOnlyByCopyIn u v n ((State.engineInv_iff u).mpr h) hstep hslot with ⟨-, -, hcopy, -⟩ | hreset
  · exact absurd (hpos.symm.trans hcopy) (by decide)
  · exact absurd (hready.symm.trans hreset) (by decide)

/-- A POP at its release executes, in a domain that runs. -/
theorem State.Consistent.at_popRelease {s : State} (h : s.Consistent) (hpos : s.b.pos = .popRelease) :
    s.b.busy = true ∧ s.b.ready = true ∧ s.handshake = some .tokenPending := by
  obtain ⟨hbusy, -, -, -, hpending⟩ := (DomainB.engineOk_popRelease hpos).mp h.consumer
  exact ⟨hbusy, (h.ready_of_tokenPending hpending).2, h.handshake_of_tokenPending hpending⟩

theorem CarriesFrame.step {s u v : State} (h : CarriesFrame s u) (hkept : u.stagingKept)
    (hstep : step u = .next v) : CarriesFrame s v := by
  obtain ⟨hreadyA, hreadyB, hpos⟩ := hkept
  have hconsistent := (step_consistent h.consistent hstep).1
  obtain ⟨hcfg, -, hmode⟩ := parametersAndModeAreFixedBetweenResets u v hstep
  have hmode' : v.b.mode = u.b.mode := hmode.resolve_right fun ⟨hreset, _⟩ => by simp [hreadyB] at hreset
  have hstaging : v.mem.staging = u.mem.staging :=
    (step_staging_cases hstep).resolve_right fun hwrite => by simp [hpos, hreadyA] at hwrite
  refine ⟨hconsistent, everyStepKeepsTheBufferForm u v h.wf hstep, hcfg.trans h.cfg, hmode'.trans h.mode,
    hstaging.trans h.staging, fun hrelease i hi => ?_⟩
  obtain ⟨-, hready', -⟩ := hconsistent.at_popRelease hrelease
  rcases step_reachesRelease hstep hrelease with hthere | ⟨hcopy, hmem⟩
  · obtain ⟨hbusy, -, -⟩ := h.consistent.at_popRelease hthere
    rw [step_active_of_busy hstep hbusy hreadyB hready', step_slot_at_popRelease h.consistent hstep hthere hreadyB]
    exact h.popped hthere i hi
  · obtain ⟨hbusy, -⟩ := (DomainB.engineOk_popCopy hcopy).mp h.consistent.consumer
    rw [step_active_of_busy hstep hbusy hreadyB hready', hmem,
      State.popCopy_elem_lt h.wf (by rwa [h.cfg, h.mode]), h.staging]

/-- The state that is about to send the token carries its frame: no POP stands at its release. -/
theorem CarriesFrame.of_publishToggle {s : State} (h : s.Consistent) (hwf : s.mem.wf s.cfg = true)
    (hmode : s.a.mode = s.b.mode) (hpos : s.a.pos = .publishToggle) : CarriesFrame s s := by
  refine ⟨h, hwf, rfl, hmode.symm, rfl, fun hrelease => ?_⟩
  obtain ⟨-, -, -, -, hfree⟩ := (DomainA.engineOk_publishToggle hpos).mp h.producer
  obtain ⟨-, -, hpending⟩ := h.at_popRelease hrelease
  exact absurd ((h.handshake_of_stagingFree hfree).symm.trans hpending) (by decide)

/-- No frame is outstanding in phase (a), where PUBLISH writes STAGING (R374). -/
theorem State.not_frameOutstanding_of_idle {s : State} (h : s.handshake = some .idle) :
    s.frameOutstanding = false := by
  have hbits := (s.handshake_eq_some_iff .idle).mp h
  simp_all [State.tokenBits, HandshakePhase.bits, State.frameOutstanding]

theorem State.Consistent.stagingKept {s : State} (h : s.Consistent) (hreadyA : s.a.ready = true)
    (hreadyB : s.b.ready = true) (hframe : s.frameOutstanding = true) : s.stagingKept := by
  refine ⟨hreadyA, hreadyB, fun hpos => ?_⟩
  obtain ⟨-, -, -, -, hfree⟩ := (DomainA.engineOk_publishCopy hpos).mp h.producer
  have hidle := State.not_frameOutstanding_of_idle (h.handshake_of_stagingFree hfree)
  exact absurd (hframe.symm.trans hidle) (by decide)

theorem State.frameOutstanding_of_tokenBits {s : State} {req reqSync ack ackSync : Bool}
    (h : s.tokenBits = (req, reqSync, ack, ackSync)) : s.frameOutstanding = (req != ack) := by
  obtain ⟨hreq, -, hack, -⟩ := s.tokenBits_eq_iff.mp h
  rw [State.frameOutstanding, hreq, hack]

/-- A step to a state with a frame outstanding, from one without, is PUBLISH's last (R371): domain B is as it was. -/
theorem step_b_of_published {s t : State} (h : s.Consistent) (hstep : step s = .next t)
    (hfrom : s.frameOutstanding = false) (hto : t.frameOutstanding = true) : t.b = s.b := by
  obtain ⟨-, es, u, hmove⟩ := step_consistent h hstep
  have hchanged : t.frameOutstanding ≠ s.frameOutstanding := by simp [hfrom, hto]
  generalize hmover : s.mover = mover at hmove
  cases hmove with
  | kept hbits => exact absurd (State.frameOutstanding_of_tokenBits hbits) hchanged
  | received _ _ hbits => exact absurd (State.frameOutstanding_of_tokenBits hbits) hchanged
  | released _ _ hbits => exact absurd (State.frameOutstanding_of_tokenBits hbits) hchanged
  | reset _ _ _ hbits => exact absurd ((State.frameOutstanding_of_tokenBits hbits).symm.trans hto) (by decide)
  | popped _ hphase =>
    have hbits := (t.handshake_eq_some_iff .releaseInFlight).mp hphase
    exact absurd ((State.frameOutstanding_of_tokenBits hbits).symm.trans hto) (by simp)
  | published =>
    obtain ⟨es', u', hstep'⟩ := step_of_mover hmover
    obtain rfl : agentStep .producerEngine { s with sched := es', turn := u' } = t := by simpa [hstep'] using hstep
    exact producerStep_b _

/-- PUBLISH's last step, if it leaves a frame outstanding with domain B out of reset, begins with STAGING kept. -/
theorem stagingKept_of_publishToggle {s u : State} (h : s.Consistent) (hpos : s.a.pos = .publishToggle)
    (hstep : step s = .next u) (hready : u.b.ready = true) (hframe : u.frameOutstanding = true) : s.stagingKept := by
  obtain ⟨-, -, -, -, hfree⟩ := (DomainA.engineOk_publishToggle hpos).mp h.producer
  have hnone := State.not_frameOutstanding_of_idle (h.handshake_of_stagingFree hfree)
  refine ⟨h.a_ready_of_pos (by simp [hpos]), ?_, by simp [hpos]⟩
  rw [← step_b_of_published h hstep hnone hframe]
  exact hready

/-- Settles O46: from the token on every step carries the frame, since STAGING is kept while the frame is outstanding
and a POP that reaches its release has copied it. -/
theorem popCopiesExactlyThePublishedFrame : Obligations.PopCopiesExactlyThePublishedFrame := by
  intro n s t hinv hwf hmode hpos hrun houtstanding
  have hs := (State.engineInv_iff s).mp hinv
  have hcarries : CarriesFrame s t := by
    refine run_keeps (P := CarriesFrame s) (Q := State.stagingKept) (fun _ _ hu hkept => hu.step hkept)
      (.of_publishToggle hs hwf hmode hpos) hrun fun m u hm hu hcarried => ?_
    cases m with
    | zero =>
      cases hu
      obtain ⟨n, rfl⟩ := Nat.exists_eq_add_one_of_ne_zero (Nat.ne_of_gt hm)
      obtain ⟨u, hfirst, -⟩ := run_succ_iff.mp hrun
      obtain ⟨-, hready, hframe⟩ := houtstanding 1 u le_rfl hm (run_succ_iff.mpr ⟨u, hfirst, rfl⟩)
      exact stagingKept_of_publishToggle hs hpos hfirst hready hframe
    | succ m =>
      obtain ⟨hreadyA, hreadyB, hframe⟩ := houtstanding (m + 1) u (Nat.le_add_left 1 m) hm.le hu
      exact hcarried.consistent.stagingKept hreadyA hreadyB hframe
  exact hcarries.popped

end Sys2Proof.Machine
end

section
/-! PROOFS. The waits: of PUBLISH for the staging buffer (R351), of POP for a token (R357), of CAPTURE, EDGE and RUN for a
sample (R202, R305, R462); and what every step leaves of a state held for a sample. -/

namespace Sys2Proof.Machine

/-! ## PUBLISH waiting for the staging buffer -/

theorem producerStep_accepted_publish (s : State) :
    producerStep (s.acceptA 0x09 .publishing) = ((s.acceptA 0x09 .publishing).beginPhase .publishing).setPos .publish :=
  producerStep_starting (s := s.acceptA 0x09 .publishing) rfl

/-- PUBLISH issued in `s` and held with WAIT_STAGING (R351). -/
def State.publishHeld (s : State) : State :=
  { s with
    a := { s.a with busy := true, op := 0x09, phase := .publishing, waitStaging := true, pos := .publish } }

theorem producerSteps_publishHeld {s : State} (hwait : s.a.waitStaging = false) (htaken : s.a.stagingFree = false)
    (n : Nat) : producerSteps (n + 2) (s.acceptA 0x09 .publishing) = s.publishHeld := by
  have htest : producerStep (((s.acceptA 0x09 .publishing).beginPhase .publishing).setPos .publish) = s.publishHeld := by
    rw [producerStep_publish rfl (by exact hwait), State.publishTest, if_neg (by exact Bool.eq_false_iff.mp htaken)]
    rfl
  rw [producerSteps_succ, producerStep_accepted_publish, producerSteps_succ, htest]
  exact producerSteps_fixed (producerStep_publish_held rfl rfl) n

/-- R63, R351: the release that has arrived ends the wait, and the engine passes its test. -/
theorem ackSyncStep_ends_wait {s : State} (hready : s.a.ready = true) (hpos : s.a.pos = .publish)
    (hrelease : s.b.ack = s.a.req) :
    (ackSyncStep s).a.waitStaging = false ∧ (ackSyncStep s).a.stagingFree = true
      ∧ (producerStep (ackSyncStep s)).a.pos = .publishCopy := by
  have hsync : ackSyncStep s = { s with
      a := { s.a with ackSync := s.b.ack, waitStaging := s.a.waitStaging && s.b.ack != s.a.req } } := if_pos hready
  have hwait : (ackSyncStep s).a.waitStaging = false := by simp [hsync, hrelease]
  have hfree : (ackSyncStep s).a.stagingFree = true := by simp [hsync, hrelease, DomainA.stagingFree]
  refine ⟨hwait, hfree, ?_⟩
  rw [producerStep_publish (by rw [hsync]; exact hpos) hwait, State.publishTest, if_pos hfree, State.setPos_a_pos]

/-! ## POP waiting for a token -/

/-- POP issued in `s` and held with WAIT_TOKEN (R357). -/
def State.popHeld (s : State) : State :=
  { s with b := { s.b with busy := true, op := 0x01, waitToken := true, pos := .pop } }

/-- A consumer engine whose step changes nothing stays where it is however often it is tried. -/
theorem consumerSteps_fixed {s : State} (h : consumerStep s = s) (n : Nat) : consumerSteps n s = s := by
  induction n with
  | zero => rfl
  | succ n ih => rw [consumerSteps_succ, h, ih]

theorem consumerSteps_popHeld {s : State} (hwait : s.b.waitToken = false) (hnone : s.b.tokenPending = false) (n : Nat) :
    consumerSteps (n + 1) s.acceptPop = s.popHeld := by
  have htest : consumerStep s.acceptPop = s.popHeld := by
    rw [consumerStep_pop rfl (by exact hwait), State.popTest, if_neg (by exact Bool.eq_false_iff.mp hnone)]
    rfl
  rw [consumerSteps_succ, htest]
  exact consumerSteps_fixed (consumerStep_pop_held rfl rfl) n

/-- R73, R357: the token that has arrived ends the wait, and the engine passes its test. -/
theorem reqSyncStep_ends_wait {s : State} (hready : s.b.ready = true) (hpos : s.b.pos = .pop)
    (htoken : s.a.req ≠ s.b.ack) :
    (reqSyncStep s).b.waitToken = false ∧ (reqSyncStep s).b.tokenPending = true
      ∧ (consumerStep (reqSyncStep s)).b.pos = .popCopy := by
  have hsync : reqSyncStep s = { s with
      b := { s.b with reqSync := s.a.req, waitToken := s.b.waitToken && s.a.req == s.b.ack } } := if_pos hready
  have hwait : (reqSyncStep s).b.waitToken = false := by simp [hsync, htoken]
  have hpending : (reqSyncStep s).b.tokenPending = true := by simp [hsync, htoken, DomainB.tokenPending]
  refine ⟨hwait, hpending, ?_⟩
  rw [consumerStep_pop (by rw [hsync]; exact hpos) hwait, State.popTest, if_pos hpending]
  rfl

/-! ## A sampling command with no sample on offer -/

/-- Where a CAPTURING phase asks for its first sample: in EDGE's loop or in CAPTURE's (R322, R326). -/
def DomainA.firstSample (a : DomainA) : ProducerPos := if a.capturesEdge then .edgeFirst else .capture 0

/-- The CAPTURING phase begun in `c`, held with WAIT_ADC for its first sample (R63, R202, R305). -/
def State.firstSampleHeld (c : State) : State :=
  { c with
    a := { c.a with
      phase := .capturing, adcEn := true, tsCap := c.a.cycle, waitAdc := true, pos := c.a.firstSample } }

/-- The engine begins the phase by one step, asks for the sample by the next, and holds. -/
theorem producerSteps_firstSampleHeld {c : State} (hpos : c.a.pos = .starting .capturing) (hwait : c.a.waitAdc = false)
    (hsamples : 0 < c.cfg.rawSamples) (n : Nat) : producerSteps (n + 2) c = c.firstSampleHeld := by
  have hstart : producerStep c = c.startPhase .capturing := producerStep_starting hpos
  have ⟨hasks, hholds⟩ : producerStep (c.startPhase .capturing) = c.firstSampleHeld
      ∧ producerStep c.firstSampleHeld = c.firstSampleHeld := by
    by_cases hedge : c.a.capturesEdge = true
    · have hfirst : c.a.firstSample = .edgeFirst := if_pos hedge
      exact ⟨producerStep_edgeFirst hfirst hwait, producerStep_held rfl (.inr (.inl hfirst))⟩
    · have hfirst : c.a.firstSample = .capture 0 := if_neg hedge
      exact ⟨producerStep_capture_lt hfirst hwait hsamples, producerStep_held rfl (.inl ⟨0, hfirst⟩)⟩
  rw [producerSteps_succ, hstart, producerSteps_succ, hasks]
  exact producerSteps_fixed hholds n

/-- A sampling command accepted in `s`, with its OP and RUNNING, held at `pos` for its first sample. -/
def State.sampleHeld (s : State) (op : BitVec 8) (run : Bool) (pos : ProducerPos) : State :=
  { s with
    a := { s.a with
      busy := true, op := op, running := run, phase := .capturing, adcEn := true, tsCap := s.a.cycle,
      waitAdc := true, pos := pos } }

/-- A sampling command accepted with no sample on offer holds, and the ADC source transfers nothing. -/
theorem holds_without_sample {s c : State} {i : Instr} {op : BitVec 8} {run : Bool} {pos : ProducerPos}
    (hexec : exec i s = .next c) (hpos : c.a.pos = .starting .capturing)
    (hheld : c.firstSampleHeld = s.sampleHeld op run c.a.firstSample) (hfirst : c.a.firstSample = pos)
    (hwait : c.a.waitAdc = false) (hsamples : 0 < c.cfg.rawSamples) (hoffered : s.adcOffered = []) :
    ∃ s1, exec i s = .next s1 ∧ (∀ n, producerSteps (n + 2) s1 = s.sampleHeld op run pos)
      ∧ adcTransfer (producerSteps 2 s1) = producerSteps 2 s1 := by
  have hsteps : ∀ n, producerSteps (n + 2) c = s.sampleHeld op run pos := fun n =>
    (producerSteps_firstSampleHeld hpos hwait hsamples n).trans (hheld.trans (by rw [hfirst]))
  exact ⟨c, hexec, hsteps, adcTransfer_none (by rw [hsteps 0]; exact hoffered)⟩

/-! ## A state held for a sample -/

/-- A state held for a sample: a command executes, in a domain out of reset, and its engine does nothing (R51, R63). -/
theorem State.Consistent.of_waitAdc {s : State} (h : s.Consistent) (hwait : s.a.waitAdc = true) :
    s.a.busy = true ∧ s.a.ready = true ∧ producerStep s = s := by
  have ⟨hbusy, hpos⟩ : s.a.busy = true ∧ ((∃ i, s.a.pos = .capture i) ∨ s.a.pos = .edgeFirst
      ∨ (∃ p c, s.a.pos = .edgeScan p c) ∨ ∃ i c, s.a.pos = .edgeFill i c) := by
    have hok := h.producer
    cases hpos : s.a.pos <;> simp_all [DomainA.engineOk, DomainA.atWork]
  refine ⟨hbusy, h.a_ready_of_pos fun hidle => ?_, producerStep_held hwait hpos⟩
  simp [hidle] at hpos

/-- What a hold for a sample keeps: the wait, the command with its phase and position, `adc_en`, and RAW. -/
def State.sampleHold (s : State) : Bool × Bool × BitVec 8 × Phase × ProducerPos × Bool × Bool × List Half :=
  (s.a.waitAdc, s.a.busy, s.a.op, s.a.phase, s.a.pos, s.a.adcEn, s.a.running, s.mem.raw)

/-- Between `s` and `t` a sample on offer was transferred, the command still executing (R47, R462). -/
def TransfersSample (s t : State) : Prop :=
  t.a.waitAdc = false ∧ t.a.busy = s.a.busy ∧ t.a.op = s.a.op ∧ ∃ v, s.adcOffered = v :: t.adcOffered

theorem State.takeSample_command (s : State) (v : Half) :
    (s.takeSample v).a.waitAdc = s.a.waitAdc ∧ (s.takeSample v).a.busy = s.a.busy ∧ (s.takeSample v).a.op = s.a.op
      ∧ (s.takeSample v).adcOffered = s.adcOffered := by
  unfold State.takeSample
  split <;> exact ⟨rfl, rfl, rfl, rfl⟩

theorem adcTransfer_cases (s : State) : adcTransfer s = s ∨ TransfersSample s (adcTransfer s) := by
  cases hoffered : s.adcOffered with
  | nil => exact .inl (adcTransfer_none hoffered)
  | cons v vs =>
    cases hwait : s.a.waitAdc with
    | false => exact .inl (adcTransfer_not_ready hwait)
    | true =>
      rw [adcTransfer_ready hoffered hwait]
      obtain ⟨hfree, hbusy, hop, hrest⟩ := State.takeSample_command
        { s with adcOffered := vs, a := { s.a with waitAdc := false } } (adcBitsOf s.cfg v.toNat)
      exact .inr ⟨hfree, hbusy, hop, v, by rw [hoffered, hrest]⟩

@[simp] theorem Memory.setSlot_raw (m : Memory) (n : Bool) (xs : List Half) : (m.setSlot n xs).raw = m.raw := by
  cases n <;> rfl

theorem consumerStep_raw (s : State) : (consumerStep s).mem.raw = s.mem.raw := by
  cases hpos : s.b.pos with
  | idle => rw [consumerStep_idle hpos]
  | pop =>
    simp only [consumerStep, hpos]
    split_ifs <;> simp
  | popCopy => rw [consumerStep_popCopy hpos, State.popCopy, Memory.setSlot_raw]
  | popRelease => rw [consumerStep_popRelease hpos, State.popEnd_mem]

/-- No agent's step ends a hold for a sample but the ADC source's transfer. -/
theorem agentStep_sampleHold {s : State} (h : s.Consistent) (hwait : s.a.waitAdc = true) (g : Agent) :
    (agentStep g s).sampleHold = s.sampleHold ∨ (g = .adcSource ∧ TransfersSample s (agentStep g s)) := by
  obtain ⟨-, hready, hstill⟩ := h.of_waitAdc hwait
  cases g with
  | adcSource => exact (adcTransfer_cases s).imp (congrArg State.sampleHold) (⟨rfl, ·⟩)
  | producerEngine => exact .inl (congrArg State.sampleHold hstill)
  | consumerEngine => left; simp only [agentStep, State.sampleHold, consumerStep_a, consumerStep_raw]
  | reqSynchroniser =>
    left
    rcases reqSyncStep_cases s with ⟨-, hs⟩ | ⟨-, hs⟩ <;> simp only [agentStep, hs, State.sampleHold]
  | ackSynchroniser =>
    left
    rcases ackSyncStep_cases s with ⟨-, hs⟩ | ⟨-, hs⟩ <;> simp only [agentStep, hs, State.sampleHold]
  | clockA => left; simp only [agentStep, clockStepA]; split <;> rfl
  | clockB => left; simp only [agentStep, clockStepB]; split <;> rfl
  | resetSynchroniserA => left; simp [agentStep, leaveResetA, hready]
  | resetSynchroniserB => left; simp only [agentStep, leaveResetB]; split <;> rfl

/-- While a command executes no instruction writes a buffer: a MEM_DATA write is refused with WIN_BUSY (R405, R407). -/
theorem exec_mem_of_busy {i : Instr} {s t : State} (hbusy : s.a.busy = true) (h : exec i s = .next t) : t.mem = s.mem := by
  by_cases hwrite : ∃ v, i = .aWriteMemData v
  · obtain ⟨v, rfl⟩ := hwrite
    cases h
    have hcheck : s.windowCheck true = some .winBusy := by simp [State.windowCheck, hbusy]
    rcases s.writeMemData_cases v with ⟨-, hs⟩ | ⟨-, c, -, hs⟩ | ⟨-, hnone, -⟩
    · rw [hs]
    · rw [hs]; rfl
    · exact absurd (hcheck.symm.trans hnone) nofun
  · exact (transactionsWriteBuffersOnlyThroughMemData i s t h).1 fun v hv => hwrite ⟨v, hv⟩

/-- No instruction ends a hold for a sample. -/
theorem exec_sampleHold {i : Instr} {s t : State} (hbusy : s.a.busy = true) (h : exec i s = .next t) :
    t.sampleHold = s.sampleHold := by
  have hmem := exec_mem_of_busy hbusy h
  simp only [State.sampleHold, hmem]
  rcases exec_effect h with hA | hB
  · cases hA with
    | registers | store => rfl
    | accept _ _ hidle => exact absurd (hidle.symm.trans hbusy) Bool.false_ne_true
    | acceptRun hidle => exact absurd (hidle.symm.trans hbusy) Bool.false_ne_true
  · cases hB <;> rfl

/-- What a step does to a hold for a sample: nothing, or it is the transfer of a sample on offer, or the assertion of
reset (R462). -/
theorem step_sampleHold {s t : State} (h : s.Consistent) (hwait : s.a.waitAdc = true) (hstep : step s = .next t) :
    t.sampleHold = s.sampleHold ∨ (s.mover = some .adcSource ∧ TransfersSample s t)
      ∨ (t.rstN = false ∧ t.a.ready = false) := by
  obtain ⟨hbusy, -, -⟩ := h.of_waitAdc hwait
  have hmoved : ∀ es u, ({ s with sched := es, turn := u } : State).Consistent :=
    h.withEnvironment s.modeStrap s.adcOffered
  rcases step_cases hstep with ⟨hs, rfl⟩ | ⟨r, es, i, -, -, hexec⟩ | ⟨g, es, hs, rfl⟩ | ⟨v, es, -, rfl⟩
    | ⟨level, es, -, rfl⟩ | ⟨strap, es, -, rfl⟩
  · rcases agentStep_sampleHold (hmoved s.sched (nextTurn s.turn)) hwait s.turn with hkept | ⟨hturn, htransfer⟩
    · exact .inl hkept
    · exact .inr (.inl ⟨by simp [State.mover, hs, hturn], htransfer⟩)
  · exact .inl (exec_sampleHold (s := { s with sched := es }) hbusy hexec)
  · rcases agentStep_sampleHold (hmoved es s.turn) hwait g with hkept | ⟨hg, htransfer⟩
    · exact .inl hkept
    · exact .inr (.inl ⟨by simp [State.mover, hs, hg], htransfer⟩)
  · exact .inl rfl
  · cases level with
    | true => exact .inl rfl
    | false => exact .inr (.inr ⟨rfl, rfl⟩)
  · exact .inl rfl

/-- Settles O19: each command holds where its test fails, the synchroniser's copy ends the wait, and of the steps from a
state held for a sample only a transfer, or reset, ends the hold. -/
theorem waitsHoldUntilTheSynchroniserSteps : Obligations.WaitsHoldUntilTheSynchroniserSteps := by
  refine ⟨fun s hready hbusy hwait htaken => ?_, fun s hready hbusy hwait hstale hnone => ?_,
    fun s hvalid hready hbusy hwait hoffered i op run pos hi => ?_, fun s hinv hwait => ?_⟩
  · have hheld := producerSteps_publishHeld hwait (by simpa [DomainA.stagingFree] using htaken)
    refine ⟨_, execPublish_accepts hready hbusy, hheld, fun hrelease => ?_⟩
    rw [hheld 0]
    exact ackSyncStep_ends_wait (s := s.publishHeld) hready rfl hrelease
  · have hheld := consumerSteps_popHeld hwait (by simpa [DomainB.tokenPending] using hnone)
    refine ⟨_, execPop_accepts hready hbusy hstale, hheld, fun htoken => ?_⟩
    rw [hheld 0]
    exact reqSyncStep_ends_wait (s := s.popHeld) hready rfl htoken
  · have hsamples : 0 < s.cfg.rawSamples := by
      have hranges := (params_valid_iff s.cfg).mp hvalid
      omega
    cases hmode : s.a.mode with
    | spectrum =>
      simp only [hmode, List.mem_cons, Prod.mk.injEq, List.not_mem_nil, or_false] at hi
      rcases hi with ⟨rfl, rfl, rfl, rfl⟩ | ⟨rfl, rfl, rfl, rfl⟩
      · exact holds_without_sample (execCapture_accepts hready hbusy hmode) rfl rfl rfl hwait hsamples hoffered
      · exact holds_without_sample (execRun_accepts hready hbusy) rfl rfl
          (by simp [DomainA.firstSample, DomainA.capturesEdge, hmode, opRun, opEdge]) hwait hsamples hoffered
    | oscilloscope =>
      simp only [hmode, List.mem_cons, Prod.mk.injEq, List.not_mem_nil, or_false] at hi
      rcases hi with ⟨rfl, rfl, rfl, rfl⟩ | ⟨rfl, rfl, rfl, rfl⟩
      · exact holds_without_sample (execEdge_accepts hready hbusy hmode) rfl rfl rfl hwait hsamples hoffered
      · exact holds_without_sample (execRun_accepts hready hbusy) rfl rfl
          (by simp [DomainA.firstSample, DomainA.capturesEdge, hmode, opRun]) hwait hsamples hoffered
  · have hs := (State.engineInv_iff s).mp hinv
    obtain ⟨hbusy, -, hstill⟩ := hs.of_waitAdc hwait
    refine ⟨producerSteps_fixed hstill, fun t hstep => ?_⟩
    rcases step_sampleHold hs hwait hstep with hkept | ⟨hmover, hfree, hbusy', hop, hoffered⟩ | hreset
    · simp only [State.sampleHold, Prod.mk.injEq] at hkept
      obtain ⟨hwait', hbusy', hop, hphase, hpos, hen, hrunning, hraw⟩ := hkept
      exact .inl ⟨hwait'.trans hwait, hbusy'.trans hbusy, hop, hphase, hpos, hen, hrunning, hraw⟩
    · exact .inr (.inl ⟨hmover, hfree, hbusy'.trans hbusy, hop, hoffered⟩)
    · exact .inr (.inr hreset)

end Sys2Proof.Machine
end

section
/-! PROOFS. The register accesses (R400 to R414): what the plain writes store, the checks of the two windows and the
element a window read or write reaches, and the register a plain read answers. -/

namespace Sys2Proof.Machine

/-! ## Plain writes -/

/-- The low bits of a word. -/
theorem extractLsb'_low {w : Nat} (n : Nat) (v : BitVec w) : v.extractLsb' 0 n = BitVec.ofNat n v.toNat :=
  BitVec.eq_of_toNat_eq (by simp)

/-- Settles O27: each select and index takes its bits of the word in the one step of the write. -/
theorem selectWritesTakeTheLowBits : Obligations.SelectWritesTakeTheLowBits := by
  refine fun s v => ⟨fun hready => ⟨?_, ?_⟩, fun hready => ⟨?_, ?_⟩⟩
  · simp [exec, execWriteMemSel, hready, extractLsb'_low]
  · simp [exec, execWriteMemIdx, hready, extractLsb'_low]
  · simp [exec, execWriteRdSel, hready, extractLsb'_low]
  · simp [exec, execWriteRdIdx, hready, extractLsb'_low]

/-- Settles O28: out of reset the write is the clear, whatever its word. -/
theorem errorWritesClearTheRecord : Obligations.ErrorWritesClearTheRecord :=
  fun s _ => ⟨fun hready => by simp [exec, execWriteErrA, hready, State.clearError, ErrorRecord.none],
    fun hready => by simp [exec, execWriteErrB, hready, State.clearError, ErrorRecord.none]⟩

/-- Settles O31: such a write is modelled by no change at all. -/
theorem otherWritesStoreNothing : Obligations.OtherWritesStoreNothing := fun _ _ _ => ⟨rfl, rfl⟩

/-! ## The checks of MEM_DATA (R405) -/

/-- The table of lengths; the reserved selects have length 0. -/
theorem windowLen_eq (p : Params) (sel : BitVec 4) :
    windowLen p sel = ([p.rawbufLen, p.downsampled, p.fftSize, p.fftSize, p.bins, p.fftSize, p.bins, p.slotCap] :
      List Nat).getD sel.toNat 0 := by
  unfold windowLen
  split
  case h_9 h0 h1 h2 h3 h4 h5 h6 h7 =>
    simp only [imp_false] at h0 h1 h2 h3 h4 h5 h6 h7
    have hreserved : 8 ≤ sel.toNat := by omega
    rw [List.getD_eq_default _ _ (by exact hreserved)]
  all_goals
    rename_i hsel
    rw [hsel]
    rfl

theorem sel_lt_of_lt_windowLen {p : Params} {sel : BitVec 4} {i : Nat} (h : i < windowLen p sel) : sel.toNat < 8 := by
  by_contra hreserved
  rw [windowLen_eq, List.getD_eq_default _ _ (by exact Nat.not_lt.mp hreserved)] at h
  omega

theorem windowReadOnly_iff (sel : BitVec 4) : windowReadOnly sel = true ↔ 4 ≤ sel.toNat ∧ sel.toNat < 8 := by
  revert sel
  decide

section
variable {s : State}

theorem State.windowCheck_busy (hbusy : s.a.busy = true) (isWrite : Bool) : s.windowCheck isWrite = some .winBusy := by
  simp [State.windowCheck, hbusy]

theorem State.windowCheck_range (hbusy : s.a.busy = false) (hidx : windowLen s.cfg s.a.memSel ≤ s.a.memIdx.toNat)
    (isWrite : Bool) : s.windowCheck isWrite = some .range := by
  simp [State.windowCheck, hbusy, hidx]

theorem State.windowCheck_inRange (hbusy : s.a.busy = false) (hidx : s.a.memIdx.toNat < windowLen s.cfg s.a.memSel)
    (isWrite : Bool) :
    s.windowCheck isWrite = if isWrite && windowReadOnly s.a.memSel then some .readOnly else none := by
  simp [State.windowCheck, hbusy, Nat.not_le.mpr hidx]

theorem execReadMemData_raises (hready : s.a.ready = true) {c : ErrorCode} (hcheck : s.windowCheck false = some c) :
    exec .aReadMemData s = .next { s with a := { s.a with err := s.a.err.record c 0, rdata := 0 } } := by
  simp [exec, execReadMemData, State.readMemData, hready, hcheck, State.raise, State.answerA]

theorem execWriteMemData_raises (hready : s.a.ready = true) {c : ErrorCode} (hcheck : s.windowCheck true = some c)
    (v : Word) : exec (.aWriteMemData v) s = .next { s with a := { s.a with err := s.a.err.record c 0 } } := by
  simp [exec, execWriteMemData, State.writeMemData, hready, hcheck, State.raise]

theorem execReadMemData_answers (hready : s.a.ready = true) (hcheck : s.windowCheck false = none) :
    exec .aReadMemData s = .next { s with
      a := { s.a with
        memIdx := s.a.memIdx + 1
        rdata := windowElement s.cfg s.a.mode s.mem s.a.memSel s.a.memIdx.toNat } } := by
  simp [exec, execReadMemData, State.readMemData, hready, hcheck, State.advanceMemIdx, State.answerA]

theorem execWriteMemData_stores (hready : s.a.ready = true) (hcheck : s.windowCheck true = none) (v : Word) :
    exec (.aWriteMemData v) s = .next { s with
      a := { s.a with memIdx := s.a.memIdx + 1 }
      mem := windowStore s.cfg s.mem s.a.memSel s.a.memIdx.toNat v } := by
  simp [exec, execWriteMemData, State.writeMemData, hready, hcheck, State.advanceMemIdx]

end

/-- Settles O26: the table of lengths, then the first check that fails gives the error of a read and of a write. -/
theorem windowChecksInTheirOrder : Obligations.WindowChecksInTheirOrder := by
  intro s v hready
  refine ⟨windowLen_eq s.cfg s.a.memSel, fun hbusy => ?_, fun hidle hidx => ?_, fun hidle hidx hsel => ?_⟩
  · exact ⟨execReadMemData_raises hready (State.windowCheck_busy hbusy _),
      execWriteMemData_raises hready (State.windowCheck_busy hbusy _) v⟩
  · exact ⟨execReadMemData_raises hready (State.windowCheck_range hidle hidx _),
      execWriteMemData_raises hready (State.windowCheck_range hidle hidx _) v⟩
  · have hreadOnly : windowReadOnly s.a.memSel = true :=
      (windowReadOnly_iff _).mpr ⟨hsel, sel_lt_of_lt_windowLen hidx⟩
    refine execWriteMemData_raises hready ?_ v
    simp [State.windowCheck_inRange hidle hidx, hreadOnly]

/-! ## The formats of an element on a port (R125, R408, R411) -/

theorem sext32_toInt (b : Half) : (sext32 b).toInt = b.toInt := BitVec.toInt_signExtend_of_le (by decide)

theorem zext32_toNat (b : Half) : (zext32 b).toNat = b.toNat := by
  have hlt := b.isLt
  simp only [zext32, BitVec.truncate_eq_setWidth, BitVec.toNat_setWidth]
  omega

theorem pairWord_toNat (x : Pair) : (pairWord x).toNat = x.re.toNat + 65536 * x.im.toNat := by
  rw [pairWord, pack, append_toNat]
  omega

theorem u16_toNat {v : Int} (hlo : 0 ≤ v) (hhi : v < 65536) : ((u16 v).toNat : Int) = v := by
  rw [u16, BitVec.toNat_ofInt]
  omega

/-- Settles O24: the checks pass, and the element is in the format of its select. -/
theorem memDataReadReturnsTheElement : Obligations.MemDataReadReturnsTheElement := by
  intro s _ _ hready hidle hidx
  have hcheck : s.windowCheck false = none := by simp [State.windowCheck_inRange hidle hidx]
  refine ⟨_, execReadMemData_answers hready hcheck, fun hsel => ?_, fun hsel => ?_, fun hsel => ?_, fun hsel => ?_,
    fun hsel => ?_, fun hsel => ?_, fun hsel => ?_, fun hsel hmode => ?_, fun hsel hmode => ?_⟩
  · rw [hsel]; exact zext32_toNat _
  · rw [hsel]; exact sext32_toInt _
  · rw [hsel]; exact pairWord_toNat _
  · rw [hsel]; exact sext32_toInt _
  · rw [hsel]; exact sext32_toInt _
  · have hbounds := hann_bounds s.cfg s.a.memIdx.toNat
    rw [hsel]
    exact (congrArg _ (zext32_toNat _)).trans (u16_toNat hbounds.1 (by omega))
  · rw [hsel]; exact pairWord_toNat _
  · rw [hsel, hmode]; exact sext32_toInt _
  · rw [hsel, hmode]; exact zext32_toNat _

/-! ## The element a MEM_DATA write stores (R407) -/

theorem adcBitsOf_toNat {p : Params} (h : p.valid = true) (v : Nat) : (adcBitsOf p v).toNat = v % 2 ^ p.adcBits := by
  have hbits : p.adcBits ≤ 16 := by
    rw [params_valid_iff] at h
    omega
  have hlt : v % 2 ^ p.adcBits < 2 ^ 16 :=
    (Nat.mod_lt _ (Nat.two_pow_pos _)).trans_le (Nat.pow_le_pow_right (by decide) hbits)
  rw [adcBitsOf, BitVec.toNat_ofNat, Nat.mod_eq_of_lt hlt]

theorem lowHalf_toNat (v : Word) : (v.extractLsb' 0 16).toNat = v.toNat % 65536 := by
  rw [extractLsb'_low, BitVec.toNat_ofNat]

theorem highHalf_toNat (v : Word) : (v.extractLsb' 16 16).toNat = v.toNat / 65536 := by
  have hlt := v.isLt
  rw [BitVec.extractLsb'_toNat, Nat.shiftRight_eq_div_pow]
  omega

/-- Settles O25: the checks pass, the element the select and the index name takes its bits of the word, and by
`windowStore_cell` no other element changes. -/
theorem memDataWriteStoresTheElement : Obligations.MemDataWriteStoresTheElement := by
  intro s v hvalid hwf hready hidle hwritable hidx
  have hreadOnly : windowReadOnly s.a.memSel = false := by
    rw [← Bool.not_eq_true, windowReadOnly_iff]
    omega
  have hcheck : s.windowCheck true = none := by simp [State.windowCheck_inRange hidle hidx, hreadOnly]
  obtain ⟨hraw, -, hfilt, hwork, hmag, -⟩ := (Memory.wf_iff _ _).mp hwf
  refine ⟨_, execWriteMemData_stores hready hcheck v, fun hsel => ?_, fun hsel => ?_, fun hsel => ?_, fun hsel => ?_,
    fun sp i hne => windowStore_cell _ _ _ _ v hne⟩
  all_goals rw [hsel] at hidx ⊢
  · exact (congrArg _ (elem_set_self _ _ (hidx.trans_eq hraw.symm))).trans (adcBitsOf_toNat hvalid _)
  · exact (congrArg _ (elem_set_self _ _ (hidx.trans_eq hfilt.symm))).trans (lowHalf_toNat v)
  · have hstored := pairElem_set_self s.mem.work ⟨v.extractLsb' 0 16, v.extractLsb' 16 16⟩ (hidx.trans_eq hwork.symm)
    exact ⟨(congrArg (·.re.toNat) hstored).trans (lowHalf_toNat v),
      (congrArg (·.im.toNat) hstored).trans (highHalf_toNat v)⟩
  · exact (congrArg _ (elem_set_self _ _ (hidx.trans_eq hmag.symm))).trans (lowHalf_toNat v)

/-! ## RD_DATA (R410 to R412) -/

section
variable {s : State}

theorem State.readCheck_hazard {n : Bool} (hhazard : s.b.busy = true ∧ n = !s.b.active) :
    s.readCheck n = some .hazard := by
  simp [State.readCheck, hhazard]

/-- RANGE is checked after HAZARD. -/
theorem State.readCheck_slotCap {n : Bool} (hhazard : ¬ (s.b.busy = true ∧ n = !s.b.active)) :
    s.readCheck n = if s.cfg.slotCap ≤ s.b.rdIdx.toNat then some .range else none := by
  rw [State.readCheck, if_neg (by simpa using hhazard)]

theorem execReadRdData_raises (hready : s.b.ready = true) {c : ErrorCode}
    (hcheck : s.readCheck (slotSelect s.b.active s.b.rdSel) = some c) :
    exec .bReadRdData s = .next { s with b := { s.b with err := s.b.err.record c 0, rdata := 0 } } := by
  simp [exec, execReadRdData, State.readRdData, hready, hcheck, State.raise, State.answerB]

theorem execReadRdData_answers (hready : s.b.ready = true)
    (hcheck : s.readCheck (slotSelect s.b.active s.b.rdSel) = none) :
    exec .bReadRdData s = .next { s with
      b := { s.b with
        rdIdx := s.b.rdIdx + 1
        rdata := frameWord s.b.mode (elem (s.mem.slot (slotSelect s.b.active s.b.rdSel)) s.b.rdIdx.toNat) } } := by
  simp [exec, execReadRdData, State.readRdData, hready, hcheck, State.advanceRdIdx, State.answerB]

end

/-- Settles O29: the slot by RD_SEL, and what a read of a slot does. -/
theorem rdDataReadReturnsTheSlotElement : Obligations.RdDataReadReturnsTheSlotElement := by
  intro s hready
  have hslot {k : BitVec 2} (hsel : s.b.rdSel = k) := congrArg (slotSelect s.b.active) hsel
  refine ⟨slotSelect s.b.active s.b.rdSel,
    frameWord s.b.mode (elem (s.mem.slot (slotSelect s.b.active s.b.rdSel)) s.b.rdIdx.toNat),
    hslot, hslot, hslot, hslot, fun hmode => ?_, fun hmode => ?_, ?_⟩
  · rw [hmode]; exact sext32_toInt _
  · rw [hmode]; exact zext32_toNat _
  · split_ifs with hhazard hrange
    · exact execReadRdData_raises hready (State.readCheck_hazard hhazard)
    · exact execReadRdData_raises hready ((State.readCheck_slotCap hhazard).trans (if_pos hrange))
    · exact execReadRdData_answers hready ((State.readCheck_slotCap hhazard).trans (if_neg hrange))

/-! ## Plain register reads (R400) -/

theorem diagRegisterA_isSome_iff (a : DomainA) (addr : Nat) :
    (diagRegisterA a addr).isSome = true ↔ addr ∈ [0x03C, 0x040, 0x044, 0x048] := by
  unfold diagRegisterA
  split <;> simp_all

theorem diagRegisterB_isSome_iff (b : DomainB) (addr : Nat) : (diagRegisterB b addr).isSome = true ↔ addr = 0x030 := by
  unfold diagRegisterB
  split <;> simp_all

theorem registerA_unmapped (p : Params) (a : DomainA) {addr : Nat}
    (h : addr = 0x01C ∨ addr = 0x04C ∨ 0x05C ≤ addr) : registerA p a addr = 0 := by
  unfold registerA
  split
  case h_16 => rfl
  all_goals omega

theorem registerB_unmapped (p : Params) (b : DomainB) {addr : Nat}
    (h : 0x008 ≤ addr ∧ addr ≤ 0x01C ∨ 0x034 ≤ addr ∧ addr ≤ 0x04C ∨ 0x05C ≤ addr) : registerB p b addr = 0 := by
  unfold registerB
  split
  case h_8 => rfl
  all_goals omega

/-- A read of a diagnostic counter of port A draws its answer (R72, log 6). -/
theorem execReadOtherA_diag {s : State} (hready : s.a.ready = true) {off : BitVec 10} (hoff : off ≠ offData) {c : Word}
    (hdiag : diagRegisterA s.a (byteOffset off) = some c) :
    exec (.aReadOther off) s =
      .next { s with a := { s.a with rdata := Config.diagRead s.draws c }, draws := s.draws + 1 } := by
  simp [exec, execReadOtherA, State.readRegisterA, State.drawDiag, State.answerA, hready, hoff, hdiag]

/-- A read of the diagnostic counter of port B, likewise (R74). -/
theorem execReadOtherB_diag {s : State} (hready : s.b.ready = true) {off : BitVec 10} (hoff : off ≠ offData) {c : Word}
    (hdiag : diagRegisterB s.b (byteOffset off) = some c) :
    exec (.bReadOther off) s =
      .next { s with b := { s.b with rdata := Config.diagRead s.draws c }, draws := s.draws + 1 } := by
  simp [exec, execReadOtherB, State.readRegisterB, State.drawDiag, State.answerB, hready, hoff, hdiag]

section
variable {addr k : Nat}

/-- A register of port A that is one field from bit 0. -/
theorem registerA_field {w : Nat} {p : Params} {a : DomainA} {v : BitVec w} (haddr : addr = k)
    (hreg : registerA p a k = fieldAt v 0) (hw : 0 + w ≤ 32 := by decide) : (registerA p a addr).toNat = v.toNat := by
  rw [haddr, hreg, (packs_field v hw).1]

/-- A register of port B that is one field from bit 0. -/
theorem registerB_field {w : Nat} {p : Params} {b : DomainB} {v : BitVec w} (haddr : addr = k)
    (hreg : registerB p b k = fieldAt v 0) (hw : 0 + w ≤ 32 := by decide) : (registerB p b addr).toNat = v.toNat := by
  rw [haddr, hreg, (packs_field v hw).1]

end

/-- Settles O30: a diagnostic counter draws, every other offset answers its row of the register map. -/
theorem registerReadsAnswerTheirRegister : Obligations.RegisterReadsAnswerTheirRegister := by
  refine fun s off => ⟨fun hready hform => ?_, fun hready hform => ?_⟩
  · have hoff : off ≠ offData := by simpa [Instr.wellFormed] using hform
    split_ifs with hcounter
    · obtain ⟨c, hc⟩ := Option.isSome_iff_exists.mp ((diagRegisterA_isSome_iff s.a _).mpr hcounter)
      exact ⟨_, execReadOtherA_diag hready hoff hc⟩
    · have hnone : diagRegisterA s.a (byteOffset off) = none := by
        simpa using mt (diagRegisterA_isSome_iff s.a (byteOffset off)).mp hcounter
      have hrow {k : Nat} (haddr : off.toNat * 4 = k) := congrArg (registerA s.cfg s.a) haddr
      exact ⟨_, execReadOtherA_register hready hoff hnone, hrow, hrow, hrow, hrow,
        (registerA_field · rfl), hrow, (registerA_field · rfl), hrow, (registerA_field · rfl),
        (registerA_field · rfl), registerA_unmapped s.cfg s.a⟩
  · have hoff : off ≠ offData := by simpa [Instr.wellFormed] using hform
    split_ifs with hcounter
    · obtain ⟨c, hc⟩ := Option.isSome_iff_exists.mp ((diagRegisterB_isSome_iff s.b _).mpr hcounter)
      exact ⟨_, execReadOtherB_diag hready hoff hc⟩
    · have hnone : diagRegisterB s.b (byteOffset off) = none := by
        simpa using mt (diagRegisterB_isSome_iff s.b (byteOffset off)).mp hcounter
      have hrow {k : Nat} (haddr : off.toNat * 4 = k) := congrArg (registerB s.cfg s.b) haddr
      exact ⟨_, execReadOtherB_register hready hoff hnone, hrow, hrow, hrow, hrow, hrow, hrow,
        (registerB_field · rfl), (registerB_field · rfl), registerB_unmapped s.cfg s.b⟩

end Sys2Proof.Machine
end

section
/-! PROOFS. The error records (R441, R444, R445): what each instruction does to the record of each port; and the frame
of a transaction, which reaches its own domain only (R448, R458). -/

namespace Sys2Proof.Machine

/-! ## The frame of a transaction -/

/-- What stands around the two domains and their buffers: the parameters, the pins, the samples on offer, the moves to
come. -/
def State.surroundings (s : State) : Params × Bool × Bool × List Half × List Event × Agent :=
  (s.cfg, s.rstN, s.modeStrap, s.adcOffered, s.sched, s.turn)

theorem exec_surroundings {i : Instr} {s t : State} (h : exec i s = .next t) : t.surroundings = s.surroundings := by
  rcases exec_effect h with hA | hB
  · cases hA <;> rfl
  · cases hB <;> rfl

/-- An instruction of port A leaves domain B and the token bits of domain A (R376). -/
theorem EffectA.frame {i : Instr} {s t : State} (h : EffectA s i t) :
    t.b = s.b ∧ t.a.req = s.a.req ∧ t.a.ackSync = s.a.ackSync := by
  cases h <;> exact ⟨rfl, rfl, rfl⟩

/-- An instruction of port B leaves domain A and the token bits of domain B. -/
theorem EffectB.frame {i : Instr} {s t : State} (h : EffectB s i t) :
    t.a = s.a ∧ t.b.reqSync = s.b.reqSync ∧ t.b.ack = s.b.ack := by
  cases h <;> exact ⟨rfl, rfl, rfl⟩

/-- Settles O36, by what an instruction can do on its port. -/
theorem eachPortReachesOnlyItsDomain : Obligations.EachPortReachesOnlyItsDomain := by
  intro i s t h
  have hsurroundings := exec_surroundings h
  simp only [State.surroundings, Prod.mk.injEq] at hsurroundings
  obtain ⟨hcfg, hrstN, hstrap, hoffered, hsched, hturn⟩ := hsurroundings
  exact ⟨hcfg, hrstN, hstrap, hoffered, hsched, hturn, fun hport => (exec_effectA hport h).frame,
    fun hport => (exec_effectB hport h).frame⟩

/-! ## What an instruction does to an error record -/

/-- The error record of a port. -/
def State.err (s : State) : Port → ErrorRecord
  | .a => s.a.err
  | .b => s.b.err

/-- The error codes a port raises (R441). -/
def codesOf : Port → List ErrorCode
  | .a => [.illegal, .busy, .mode, .range, .winBusy, .readOnly]
  | .b => [.illegal, .busy, .range, .seq, .hazard]

/-- The write of a port's error register (R403, R445). -/
def errorWrite : Port → Word → Instr
  | .a => .aWriteErrA
  | .b => .bWriteErrB

/-- How an instruction takes the record `e` of port `p` to `e'`: not at all, by a raise of one of the port's codes, or,
being the write of the port's error register, by the clear. -/
inductive ErrorMove (p : Port) (i : Instr) (e e' : ErrorRecord) : Prop
  | kept (h : e' = e)
  | raised (c : ErrorCode) (opc : BitVec 8) (hc : c ∈ codesOf p) (h : e' = e.record c opc)
  | cleared (hi : ∃ v, i = errorWrite p v) (h : e' = ErrorRecord.none)

section
variable {s : State} {i : Instr}

theorem issueA_errorMove {accepted : State} (h : accepted.a.err = s.a.err) (op : BitVec 8) (legal : Mode → Bool) :
    ErrorMove .a i s.a.err (s.issueA op legal accepted).a.err := by
  rcases s.issueA_cases op legal accepted with ⟨-, hs⟩ | ⟨-, -, hs⟩ | ⟨-, -, -, hs⟩ | ⟨-, -, -, hs⟩ <;> rw [hs]
  · exact .kept rfl
  · exact .raised .busy op (by decide) rfl
  · exact .raised .mode op (by decide) rfl
  · exact .kept h

theorem issueB_errorMove {accepted : State} (h : accepted.b.err = s.b.err) (op : BitVec 8) (freshNeeded : Bool) :
    ErrorMove .b i s.b.err (s.issueB op freshNeeded accepted).b.err := by
  rcases s.issueB_cases op freshNeeded accepted with
    ⟨-, hs⟩ | ⟨-, -, hs⟩ | ⟨-, -, -, hs⟩ | ⟨-, -, -, hs⟩ <;> rw [hs]
  · exact .kept rfl
  · exact .raised .busy op (by decide) rfl
  · exact .raised .seq op (by decide) rfl
  · exact .kept h

theorem issueIllegal_errorMove (p : Port) (w : Word) :
    ErrorMove p i (s.err p) ((s.issueIllegal p w).err p) := by
  cases p <;> simp only [State.issueIllegal] <;> split
  · exact .raised .illegal _ (by decide) rfl
  · exact .kept rfl
  · exact .raised .illegal _ (by decide) rfl
  · exact .kept rfl

theorem windowCheck_mem_codesOf {isWrite : Bool} {c : ErrorCode} (h : s.windowCheck isWrite = some c) :
    c ∈ codesOf .a := by
  rcases s.windowCheck_cases isWrite with
    ⟨-, hs⟩ | ⟨-, -, hs⟩ | ⟨-, -, -, -, hs⟩ | ⟨-, -, -, hs⟩ <;> cases hs.symm.trans h <;> decide

theorem readCheck_mem_codesOf {n : Bool} {c : ErrorCode} (h : s.readCheck n = some c) : c ∈ codesOf .b := by
  unfold State.readCheck at h
  split_ifs at h <;> cases h <;> decide

theorem readMemData_errorMove : ErrorMove .a i s.a.err s.readMemData.a.err := by
  rcases s.readMemData_cases with ⟨-, hs⟩ | ⟨-, c, hc, hs⟩ | ⟨-, -, hs⟩ <;> rw [hs]
  · exact .kept rfl
  · exact .raised c 0 (windowCheck_mem_codesOf hc) rfl
  · exact .kept rfl

theorem writeMemData_errorMove (v : Word) : ErrorMove .a i s.a.err (s.writeMemData v).a.err := by
  rcases s.writeMemData_cases v with ⟨-, hs⟩ | ⟨-, c, hc, hs⟩ | ⟨-, -, hs⟩ <;> rw [hs]
  · exact .kept rfl
  · exact .raised c 0 (windowCheck_mem_codesOf hc) rfl
  · exact .kept rfl

theorem readRdData_errorMove : ErrorMove .b i s.b.err s.readRdData.b.err := by
  rcases s.readRdData_cases with ⟨-, hs⟩ | ⟨-, c, hc, hs⟩ | ⟨-, -, hs⟩ <;> rw [hs]
  · exact .kept rfl
  · exact .raised c 0 (readCheck_mem_codesOf hc) rfl
  · exact .kept rfl

theorem readRegisterA_errorMove (off : BitVec 10) : ErrorMove .a i s.a.err (s.readRegisterA off).a.err := by
  unfold State.readRegisterA
  split_ifs
  · exact .kept rfl
  · exact readMemData_errorMove
  · split <;> exact .kept rfl

theorem readRegisterB_errorMove (off : BitVec 10) : ErrorMove .b i s.b.err (s.readRegisterB off).b.err := by
  unfold State.readRegisterB
  split_ifs
  · exact .kept rfl
  · exact readRdData_errorMove
  · split <;> exact .kept rfl

end

theorem execWriteCmdA_errorMove {i : Instr} {w : Word} {s t : State} (h : execWriteCmdA w s = .next t) :
    ErrorMove .a i s.a.err t.a.err := by
  unfold execWriteCmdA at h
  split at h <;> cases h
  case h_1 => exact .kept rfl
  case h_12 => exact issueIllegal_errorMove .a w
  all_goals exact issueA_errorMove (by exact rfl) _ _

theorem execWriteCmdB_errorMove {i : Instr} {w : Word} {s t : State} (h : execWriteCmdB w s = .next t) :
    ErrorMove .b i s.b.err t.b.err := by
  unfold execWriteCmdB at h
  split at h <;> cases h
  case h_1 => exact .kept rfl
  case h_4 => exact issueIllegal_errorMove .b w
  all_goals exact issueB_errorMove (by exact rfl) _ _

theorem exec_errorMoveA {i : Instr} {s t : State} (hport : portOf i = .a) (h : exec i s = .next t) :
    ErrorMove .a i s.a.err t.a.err := by
  cases i with
  | aNopA | aWriteOther _ _ => cases h; exact .kept rfl
  | aCapture | aFilter | aWindow | aFft | aPower | aDbconv | aSpectrum | aEdge | aPublish | aRun =>
    cases h
    exact issueA_errorMove (by exact rfl) _ _
  | aReadMemData => cases h; exact readMemData_errorMove
  | aReadOther off => cases h; exact readRegisterA_errorMove off
  | aWriteMemData v => cases h; exact writeMemData_errorMove v
  | aWriteCmdA w => exact execWriteCmdA_errorMove h
  | aWriteErrA v =>
    cases h
    split
    · exact .cleared ⟨v, rfl⟩ rfl
    · exact .kept rfl
  | aWriteMemSel _ | aWriteMemIdx _ =>
    cases h
    split <;> exact .kept rfl
  | _ => cases hport

theorem exec_errorMoveB {i : Instr} {s t : State} (hport : portOf i = .b) (h : exec i s = .next t) :
    ErrorMove .b i s.b.err t.b.err := by
  cases i with
  | bNopB | bWriteOther _ _ => cases h; exact .kept rfl
  | bPop | bSwap =>
    cases h
    exact issueB_errorMove (by exact rfl) _ _
  | bReadRdData => cases h; exact readRdData_errorMove
  | bReadOther off => cases h; exact readRegisterB_errorMove off
  | bWriteCmdB w => exact execWriteCmdB_errorMove h
  | bWriteErrB v =>
    cases h
    split
    · exact .cleared ⟨v, rfl⟩ rfl
    · exact .kept rfl
  | bWriteRdSel _ | bWriteRdIdx _ =>
    cases h
    split <;> exact .kept rfl
  | _ => cases hport

/-- What an instruction can do to the record of either port: on the other port's nothing. -/
theorem exec_errorMove {i : Instr} {s t : State} (h : exec i s = .next t) (p : Port) :
    ErrorMove p i (s.err p) (t.err p) := by
  cases hport : portOf i <;> cases p
  · exact exec_errorMoveA hport h
  · exact .kept (congrArg DomainB.err (exec_effectA hport h).frame.1)
  · exact .kept (congrArg DomainA.err (exec_effectB hport h).frame.1)
  · exact exec_errorMoveB hport h

/-! ## The first error is kept (R444) -/

/-- R441: the table of the error codes and their numbers. -/
theorem mem_errorTable (c : ErrorCode) (n : BitVec 4) :
    (c, n) ∈ ([(.illegal, 1), (.busy, 2), (.mode, 3), (.range, 4), (.winBusy, 5), (.readOnly, 6), (.seq, 7),
      (.hazard, 8)] : List (ErrorCode × BitVec 4)) ↔ n = c.code := by
  cases c <;> simp [ErrorCode.code]

/-- What stays of a record that holds an error. -/
def ErrorRecord.keptIn (e e' : ErrorRecord) : Prop :=
  e'.code = e.code ∧ e'.opc = e.opc ∧ (e.multi = true → e'.multi = true)

theorem ErrorMove.keepsFirst {p : Port} {i : Instr} {e e' : ErrorRecord} (h : ErrorMove p i e e')
    (hi : ∀ v, i ≠ errorWrite p v) (herror : e.code ≠ 0) : e.keptIn e' := by
  cases h with
  | kept h => exact h ▸ ⟨rfl, rfl, id⟩
  | raised c opc _ h =>
    rw [h, ErrorRecord.record_later herror]
    exact ⟨rfl, rfl, fun _ => rfl⟩
  | cleared hclear _ =>
    obtain ⟨v, hv⟩ := hclear
    exact absurd hv (hi v)

/-- Settles O35, by the two answers of a raise and by what an instruction can do to a record. -/
theorem theFirstErrorIsKept : Obligations.TheFirstErrorIsKept := by
  refine ⟨fun c n hn e s opc => ?_, fun c => ⟨c.code, (mem_errorTable c _).mpr rfl⟩, fun i s t h =>
    ⟨(exec_errorMove h .a).keepsFirst, (exec_errorMove h .b).keepsFirst⟩⟩
  rw [(mem_errorTable c n).mp hn]
  exact ⟨(ErrorRecord.record_first · c opc), (ErrorRecord.record_later · c opc), rfl, rfl⟩

end Sys2Proof.Machine
end

section
/-! PROOFS. Command issue (R446): which command a written word is (R163 to R165), and its acceptance or rejection in the
order of the checks. -/

namespace Sys2Proof.Machine

/-! ## The command a word is -/

/-- A word above the last opcode of its port, by its two fields: RSVD is nonzero or OPC has no command (R165). -/
theorem word_above_iff {w : Word} {k : Nat} (hk : k < 256) :
    (w.toNat / 256 ≠ 0 ∨ w.toNat % 256 > k) ↔ k < w.toNat := by omega

theorem opcField_eq (w : Word) : opcField w = BitVec.ofNat 8 (w.toNat % 256) :=
  BitVec.eq_of_toNat_eq (by simp [opcField_toNat])

/-- The modes column of R163, by opcode. -/
def commandModes (k : Nat) : Mode → Bool :=
  if k ≤ 7 then onlySpectrum else if k = 8 then onlyOscilloscope else bothModes

theorem commandModes_eq_false_iff {k : Nat} (hk : 1 ≤ k) (m : Mode) :
    commandModes k m = false ↔ m = .oscilloscope ∧ 1 ≤ k ∧ k ≤ 7 ∨ m = .spectrum ∧ k = 8 := by
  unfold commandModes
  split_ifs <;> cases m <;> simp [onlySpectrum, onlyOscilloscope, bothModes] <;> omega

/-- The first phase of each command of port A, by opcode (R322, R326). -/
def commandPhase (k : Nat) : Phase :=
  if k = 1 ∨ k = 8 ∨ k = 10 then .capturing else if k = 9 then .publishing else .processing

/-- The acceptance of a command of port A, by opcode (R325). -/
def State.acceptCommand (s : State) (k : Nat) : State :=
  { s with
    a := { s.a with
      busy := true
      op := BitVec.ofNat 8 k
      running := if k = 10 then true else s.a.running
      pos := .starting (commandPhase k) } }

/-- The commands of port A but NOP_A, by opcode (R163). -/
theorem execWriteCmdA_command {w : Word} (hlo : 1 ≤ w.toNat) (hhi : w.toNat ≤ 10) (s : State) :
    execWriteCmdA w s =
      .next (s.issueA (BitVec.ofNat 8 w.toNat) (commandModes w.toNat) (s.acceptCommand w.toNat)) := by
  unfold execWriteCmdA
  generalize w.toNat = k at hlo hhi
  interval_cases k <;> rfl

theorem execWriteCmdA_illegal {w : Word} (h : 10 < w.toNat) (s : State) :
    execWriteCmdA w s = .next (s.issueIllegal .a w) := by
  unfold execWriteCmdA
  split
  case h_12 => rfl
  all_goals omega

theorem execWriteCmdB_illegal {w : Word} (h : 2 < w.toNat) (s : State) :
    execWriteCmdB w s = .next (s.issueIllegal .b w) := by
  unfold execWriteCmdB
  split
  case h_4 => rfl
  all_goals omega

/-! ## The order of the checks -/

/-- R446 on port A, out of reset: BUSY, then MODE, then acceptance. -/
theorem State.issueA_eq_ite {s : State} (hready : s.a.ready = true) (op : BitVec 8) (legal : Mode → Bool)
    (accepted : State) :
    s.issueA op legal accepted =
      if s.a.busy = true then s.raise .a .busy op
      else if legal s.a.mode = false then s.raise .a .mode op else accepted := by
  simp [State.issueA, hready]

/-- R446 on port B, out of reset: BUSY, then SEQ, then the command. -/
theorem State.issueB_eq_ite {s : State} (hready : s.b.ready = true) (op : BitVec 8) (freshNeeded : Bool)
    (accepted : State) :
    s.issueB op freshNeeded accepted =
      if s.b.busy = true then s.raise .b .busy op
      else if s.b.fresh = !freshNeeded then s.raise .b .seq op else accepted := by
  cases hfresh : s.b.fresh <;> cases freshNeeded <;> simp [State.issueB, hready, hfresh]

/-- The two clauses of the MODE check are one test of the command's modes. -/
theorem ite_modes {α : Type} {k : Nat} (hk : 1 ≤ k) (m : Mode) (x y : α) :
    (if commandModes k m = false then x else y) =
      if m = .oscilloscope ∧ 1 ≤ k ∧ k ≤ 7 then x else if m = .spectrum ∧ k = 8 then x else y := by
  simp only [commandModes_eq_false_iff hk, ite_or]

/-- Settles O8: a word above its port's opcodes is ILLEGAL, 0 is the NOP, and any other the command whose checks
`issueA_eq_ite` and `issueB_eq_ite` write out. -/
theorem commandIssueFollowsTheOrderOfChecks : Obligations.CommandIssueFollowsTheOrderOfChecks := by
  refine fun s w => ⟨fun hready => ?_, fun hready => ?_⟩
  · show execWriteCmdA w s = _
    simp only [word_above_iff (w := w) (k := 0x0A) (by decide)]
    by_cases hillegal : 10 < w.toNat
    · rw [execWriteCmdA_illegal hillegal, if_pos hillegal, ← opcField_eq]
      simp [State.issueIllegal, hready, State.raise]
    · have hop : w.toNat % 256 = w.toNat := Nat.mod_eq_of_lt (by omega)
      rw [if_neg hillegal, hop]
      by_cases hnop : w.toNat = 0
      · simp [execWriteCmdA, execNopA, hnop]
      · have hlo : 1 ≤ w.toNat := Nat.one_le_iff_ne_zero.mpr hnop
        rw [if_neg hnop, execWriteCmdA_command hlo (by omega), State.issueA_eq_ite hready, ite_modes hlo]
        rfl
  · show execWriteCmdB w s = _
    simp only [word_above_iff (w := w) (k := 0x02) (by decide)]
    by_cases hillegal : 2 < w.toNat
    · rw [execWriteCmdB_illegal hillegal, if_pos hillegal, ← opcField_eq]
      simp [State.issueIllegal, hready, State.raise]
    · have hop : w.toNat % 256 = w.toNat := Nat.mod_eq_of_lt (by omega)
      rw [if_neg hillegal, hop]
      obtain hw | hw | hw : w.toNat = 0 ∨ w.toNat = 1 ∨ w.toNat = 2 := by omega
      · simp [execWriteCmdB, execNopB, hw]
      · simp [execWriteCmdB, execPop, hw, State.issueB_eq_ite hready, State.raise, State.acceptPop]
      · simp [execWriteCmdB, execSwap, hw, State.issueB_eq_ite hready, State.raise, State.swapBody]

end Sys2Proof.Machine
end

section
/-! PROOFS. The invariant of the error records (R441), the divider (R67) and the frame tails (R87, R353, R358): what a
step does to each domain's READY, error record and frame tails, and to FRAME_CNT. -/

namespace Sys2Proof.Machine

/-! ## Error records -/

/-- No error is recorded, or one of the port's codes is (R441). -/
def ErrorRecord.okOn (p : Port) (e : ErrorRecord) : Prop :=
  e = ErrorRecord.none ∨ e.code ∈ (codesOf p).map ErrorCode.code

theorem codesOf_a_iff :
    ∀ c : BitVec 4, c ∈ (codesOf .a).map ErrorCode.code ↔ c.toNat ≤ 6 ∧ c ≠ 0 := by decide

theorem codesOf_b_iff :
    ∀ c : BitVec 4, c ∈ (codesOf .b).map ErrorCode.code ↔ (c = 1 ∨ c = 2 ∨ c = 4 ∨ c = 7 ∨ c = 8) := by decide

theorem DomainA.errorOk_iff (a : DomainA) : a.errorOk = true ↔ a.err.okOn .a := by
  rcases herr : a.err with ⟨code, multi, opc⟩
  rw [ErrorRecord.okOn, codesOf_a_iff]
  by_cases hcode : code = 0#4 <;> simp [DomainA.errorOk, ErrorRecord.none, herr, hcode]

theorem DomainB.errorOk_iff (b : DomainB) : b.errorOk = true ↔ b.err.okOn .b := by
  rcases herr : b.err with ⟨code, multi, opc⟩
  rw [ErrorRecord.okOn, codesOf_b_iff]
  by_cases hcode : code = 0#4 <;> simp [DomainB.errorOk, ErrorRecord.none, herr, hcode, or_assoc]

theorem ErrorMove.okOn {p : Port} {i : Instr} {e e' : ErrorRecord} (h : ErrorMove p i e e') (he : e.okOn p) :
    e'.okOn p := by
  cases h with
  | kept h => exact h ▸ he
  | raised c opc hc h =>
    subst h
    by_cases hfirst : e.code = 0
    · rw [ErrorRecord.record_first hfirst]
      exact .inr (List.mem_map_of_mem hc)
    · rw [ErrorRecord.record_later hfirst]
      exact .inr (he.resolve_left fun hnone => hfirst (hnone ▸ rfl))
  | cleared _ h => exact .inl h

/-! ## Frame tails -/

theorem zeroFrom_iff (n : Nat) (xs : List Half) : zeroFrom n xs = true ↔ ∀ i, n ≤ i → elem xs i = 0 := by
  simp only [zeroFrom, List.all_eq_true, beq_iff_eq, List.mem_iff_getElem?, List.getElem?_drop]
  constructor
  · intro h i hi
    cases hx : xs[i]? with
    | none => simp [elem, hx]
    | some x => simpa [elem, hx] using h x ⟨i - n, by rwa [Nat.add_sub_cancel' hi]⟩
  · rintro h x ⟨j, hj⟩
    simpa [elem, hj] using h (n + j) (Nat.le_add_right ..)

/-- A frame copied in leaves the tail (R353, R358). -/
theorem zeroFrom_copyFront {n : Nat} {dst : List Half} (src : List Half) (h : zeroFrom n dst = true) :
    zeroFrom n (copyFront n src dst) = true := by
  rw [zeroFrom_iff] at h ⊢
  intro i hi
  rw [elem_copyFront_ge _ _ hi, h i hi]

/-- The slots' tails are 0. -/
def Memory.slotTailsZero (m : Memory) (n : Nat) : Prop := ∀ slot, zeroFrom n (m.slot slot) = true

theorem State.tailsZero_iff (s : State) :
    s.tailsZero = true ↔
      (s.a.ready = true → zeroFrom (s.cfg.frameLen s.a.mode) s.mem.staging = true)
      ∧ (s.b.ready = true → s.mem.slotTailsZero (s.cfg.frameLen s.b.mode)) := by
  simp [State.tailsZero, Memory.slotTailsZero, Memory.slot, imp_iff_not_or]

/-- Of the writes only PUBLISH's copy reaches STAGING while domain A is out of reset. -/
theorem BufferWrite.staging_tail {s t : State} (hwrite : BufferWrite s t) (hready : s.a.ready = true)
    (h : zeroFrom (s.cfg.frameLen s.a.mode) s.mem.staging = true) :
    zeroFrom (s.cfg.frameLen s.a.mode) t.mem.staging = true := by
  cases hwrite with
  | none hmem => rwa [hmem]
  | window v hmem => rwa [hmem, windowStore_staging]
  | sample i v hmem => rwa [hmem]
  | process hmem => rwa [hmem, State.processBody_staging]
  | publish _ hmem => rw [hmem]; exact zeroFrom_copyFront _ h
  | pop _ _ hmem => rwa [hmem, State.popCopy, Memory.setSlot_staging]
  | resetA hreset _ => exact absurd (hreset.symm.trans hready) Bool.false_ne_true
  | resetB _ hmem => rwa [hmem]

theorem Memory.slot_setSlot_of_ne (m : Memory) (xs : List Half) {slot n : Bool} (h : slot ≠ n) :
    (m.setSlot n xs).slot slot = m.slot slot := by
  obtain rfl : slot = !n := Bool.eq_not.mpr h
  exact Memory.slot_setSlot_other ..

theorem State.storeRaw_slot (s : State) (i : Nat) (v : Half) (slot : Bool) :
    (s.storeRaw i v).mem.slot slot = s.mem.slot slot := by cases slot <;> rfl

theorem State.publishCopy_slot (s : State) (slot : Bool) : s.publishCopy.mem.slot slot = s.mem.slot slot := by
  cases slot <;> rfl

theorem Memory.resetA_slot (p : Params) (draw : Nat) (m : Memory) (slot : Bool) :
    (m.resetA p draw).slot slot = m.slot slot := by cases slot <;> rfl

/-- Of the writes only POP's copy reaches a slot while domain B is out of reset. -/
theorem BufferWrite.slot_tails {s t : State} (hwrite : BufferWrite s t) (hready : s.b.ready = true)
    (h : s.mem.slotTailsZero (s.cfg.frameLen s.b.mode)) : t.mem.slotTailsZero (s.cfg.frameLen s.b.mode) := by
  intro slot
  cases hwrite with
  | none hmem => rw [hmem]; exact h slot
  | window v hmem => rw [hmem, windowStore_slot]; exact h slot
  | sample i v hmem => rw [hmem, State.storeRaw_slot]; exact h slot
  | process hmem => rw [hmem, State.processBody_slot]; exact h slot
  | publish _ hmem => rw [hmem, State.publishCopy_slot]; exact h slot
  | pop _ _ hmem =>
    rw [hmem, State.popCopy]
    by_cases hslot : slot = !s.b.active
    · rw [hslot, Memory.slot_setSlot_self]
      exact zeroFrom_copyFront _ (h _)
    · rw [Memory.slot_setSlot_of_ne _ _ hslot]
      exact h slot
  | resetA _ hmem => rw [hmem, Memory.resetA_slot]; exact h slot
  | resetB hreset _ => exact absurd (hreset.symm.trans hready) Bool.false_ne_true

/-! ## What the engines do to READY, the error records and FRAME_CNT -/

/-- READY, the error record and FRAME_CNT of domain A. -/
def DomainA.marks (a : DomainA) : Bool × ErrorRecord × BitVec 16 := (a.ready, a.err, a.frameCnt)

/-- READY and the error record of domain B. -/
def DomainB.marks (b : DomainB) : Bool × ErrorRecord := (b.ready, b.err)

/-- The marks of domain A once RUN has counted a capture (R323). -/
def State.countedMarks (s : State) : Bool × ErrorRecord × BitVec 16 :=
  (s.a.ready, s.a.err, nextFrameCnt s.cfg s.a.frameCnt)

theorem State.finishA_marks (s : State) (next : ProducerPos) : (s.finishA next).a.marks = s.a.marks := by
  unfold State.finishA
  split <;> rfl

theorem State.processEnd_marks (s : State) : s.processEnd.a.marks = s.a.marks := by
  obtain ⟨n, ha⟩ := processBody_a s
  rw [State.processEnd, State.finishA_marks]
  simp [DomainA.marks, ha]

theorem State.captureEnd_marks (s : State) :
    s.captureEnd.a.marks = s.a.marks ∨ s.captureEnd.a.marks = s.countedMarks := by
  by_cases hop : s.a.op = opRun
  · exact .inr (by rw [State.captureEnd_run hop]; rfl)
  · exact .inl (by simp [State.captureEnd, DomainA.marks, hop])

/-- Only the end of RUN's capture writes one of the marks. -/
theorem producerStep_marks (s : State) :
    (producerStep s).a.marks = s.a.marks ∨ (producerStep s).a.marks = s.countedMarks := by
  cases hpos : s.a.pos with
  | idle => exact .inl (by rw [producerStep_idle hpos])
  | starting ph => exact .inl (by rw [producerStep_starting hpos]; cases ph <;> rfl)
  | capture i =>
    simp only [producerStep, hpos]
    split_ifs
    · exact .inl rfl
    · exact .inl rfl
    · exact s.captureEnd_marks
  | edgeFirst | edgeScan _ _ =>
    simp only [producerStep, hpos]
    split_ifs <;> exact .inl rfl
  | edgeFill i cnt =>
    simp only [producerStep, hpos]
    split_ifs
    · exact .inl rfl
    · exact .inl rfl
    · exact .inl (State.finishA_marks _ _)
  | body => exact .inl (by rw [producerStep_body hpos, State.processEnd_marks])
  | publish =>
    simp only [producerStep, hpos, State.publishTest]
    split_ifs <;> exact .inl rfl
  | publishCopy => exact .inl (by rw [producerStep_publishCopy hpos]; rfl)
  | publishToggle => exact .inl (by rw [producerStep_publishToggle hpos]; exact State.finishA_marks _ _)

theorem State.takeSample_marks (s : State) (v : Half) : (s.takeSample v).a.marks = s.a.marks := by
  unfold State.takeSample
  split <;> rfl

theorem adcTransfer_marks (s : State) : (adcTransfer s).a.marks = s.a.marks := by
  unfold adcTransfer
  split
  · rfl
  · split
    · exact State.takeSample_marks ..
    · rfl

theorem consumerStep_marks (s : State) : (consumerStep s).b.marks = s.b.marks := by
  cases hpos : s.b.pos with
  | idle => rw [consumerStep_idle hpos]
  | pop =>
    simp only [consumerStep, hpos, State.popTest]
    split_ifs <;> rfl
  | popCopy => rw [consumerStep_popCopy hpos]; rfl
  | popRelease => rw [consumerStep_popRelease hpos]; rfl

/-! ## What a step does to them -/

/-- How a move from `s` to `t` takes the marks of domain A: they stay, but for a capture that RUN counts; an instruction
writes the error record; or the domain enters or leaves reset, with STAGING all 0 once it is out of it. -/
inductive MarksMoveA (s t : State) : Prop
  | kept (h : t.a.marks = s.a.marks)
  | counted (h : t.a.marks = s.countedMarks)
  | instruction (i : Instr) (hready : t.a.ready = s.a.ready) (hcnt : t.a.frameCnt = s.a.frameCnt)
      (herr : ErrorMove .a i s.a.err t.a.err)
  | reset (herr : t.a.err = ErrorRecord.none) (hcnt : t.a.frameCnt = 0)
      (hstaging : t.a.ready = true → t.mem.staging = List.replicate s.cfg.slotCap 0)

/-- How a move takes the marks of domain B, likewise. -/
inductive MarksMoveB (s t : State) : Prop
  | kept (h : t.b.marks = s.b.marks)
  | instruction (i : Instr) (hready : t.b.ready = s.b.ready) (herr : ErrorMove .b i s.b.err t.b.err)
  | reset (herr : t.b.err = ErrorRecord.none)
      (hslots : t.b.ready = true → ∀ slot, t.mem.slot slot = List.replicate s.cfg.slotCap 0)

theorem agentStep_marksMoveA (g : Agent) (s : State) : MarksMoveA s (agentStep g s) := by
  cases g with
  | producerEngine => exact (producerStep_marks s).elim .kept .counted
  | consumerEngine => exact .kept (congrArg DomainA.marks (consumerStep_a s))
  | adcSource => exact .kept (adcTransfer_marks s)
  | reqSynchroniser => exact .kept (by simp only [agentStep, reqSyncStep]; split <;> rfl)
  | ackSynchroniser => exact .kept (by simp only [agentStep, ackSyncStep]; split <;> rfl)
  | clockA => exact .kept (by simp only [agentStep, clockStepA]; split <;> rfl)
  | clockB => exact .kept (by simp only [agentStep, clockStepB]; split <;> rfl)
  | resetSynchroniserA =>
    simp only [agentStep, leaveResetA]
    split
    · exact .reset rfl rfl fun _ => rfl
    · exact .kept rfl
  | resetSynchroniserB => exact .kept (by simp only [agentStep, leaveResetB]; split <;> rfl)

theorem agentStep_marksMoveB (g : Agent) (s : State) : MarksMoveB s (agentStep g s) := by
  cases g with
  | producerEngine => exact .kept (congrArg DomainB.marks (producerStep_b s))
  | consumerEngine => exact .kept (consumerStep_marks s)
  | adcSource => exact .kept (congrArg DomainB.marks (adcTransfer_b s))
  | reqSynchroniser => exact .kept (by simp only [agentStep, reqSyncStep]; split <;> rfl)
  | ackSynchroniser => exact .kept (by simp only [agentStep, ackSyncStep]; split <;> rfl)
  | clockA => exact .kept (by simp only [agentStep, clockStepA]; split <;> rfl)
  | clockB => exact .kept (by simp only [agentStep, clockStepB]; split <;> rfl)
  | resetSynchroniserA => exact .kept (by simp only [agentStep, leaveResetA]; split <;> rfl)
  | resetSynchroniserB =>
    simp only [agentStep, leaveResetB]
    split
    · exact .reset rfl fun _ slot => by cases slot <;> rfl
    · exact .kept rfl

theorem exec_marksMove {i : Instr} {s t : State} (h : exec i s = .next t) : MarksMoveA s t ∧ MarksMoveB s t := by
  have hkept : (t.a.ready = s.a.ready ∧ t.a.frameCnt = s.a.frameCnt) ∧ t.b.ready = s.b.ready := by
    rcases exec_effect h with hA | hB
    · cases hA <;> exact ⟨⟨rfl, rfl⟩, rfl⟩
    · cases hB <;> exact ⟨⟨rfl, rfl⟩, rfl⟩
  obtain ⟨⟨hreadyA, hcnt⟩, hreadyB⟩ := hkept
  exact ⟨.instruction i hreadyA hcnt (exec_errorMove h .a), .instruction i hreadyB (exec_errorMove h .b)⟩

theorem resetPin_marksMove (level : Bool) (s : State) :
    MarksMoveA s (resetPin level s) ∧ MarksMoveB s (resetPin level s) := by
  cases level with
  | true => exact ⟨.kept rfl, .kept rfl⟩
  | false => exact ⟨.reset rfl rfl nofun, .reset rfl nofun⟩

/-- Taking the move off the schedule or passing the turn on comes first; the marks do not read either. -/
theorem step_marksMove {s t : State} (h : step s = .next t) :
    ∃ es u, MarksMoveA { s with sched := es, turn := u } t ∧ MarksMoveB { s with sched := es, turn := u } t := by
  rcases step_cases h with ⟨-, rfl⟩ | ⟨r, es, i, -, -, hexec⟩ | ⟨g, es, -, rfl⟩ | ⟨v, es, -, rfl⟩
    | ⟨level, es, -, rfl⟩ | ⟨level, es, -, rfl⟩
  · exact ⟨s.sched, nextTurn s.turn, agentStep_marksMoveA .., agentStep_marksMoveB ..⟩
  · exact ⟨es, s.turn, exec_marksMove hexec⟩
  · exact ⟨es, s.turn, agentStep_marksMoveA .., agentStep_marksMoveB ..⟩
  · exact ⟨es, s.turn, .kept rfl, .kept rfl⟩
  · exact ⟨es, s.turn, resetPin_marksMove ..⟩
  · exact ⟨es, s.turn, .kept rfl, .kept rfl⟩

/-! ## The invariant -/

/-- The divider counts below FRAME_RATE (R67, R323). -/
theorem nextFrameCnt_lt {p : Params} (h : 0 < p.frameRate) (c : BitVec 16) :
    (nextFrameCnt p c).toNat < p.frameRate := by
  rw [nextFrameCnt, BitVec.toNat_ofNat]
  exact (Nat.mod_le ..).trans_lt (Nat.mod_lt _ h)

section
variable {s t : State}

theorem DomainA.marks_eq {a : DomainA} {r : Bool} {e : ErrorRecord} {c : BitVec 16} (h : a.marks = (r, e, c)) :
    a.ready = r ∧ a.err = e ∧ a.frameCnt = c := by simpa [DomainA.marks] using h

theorem MarksMoveA.errorOk (hmove : MarksMoveA s t) (h : s.a.errorOk = true) : t.a.errorOk = true := by
  rw [DomainA.errorOk_iff] at h ⊢
  cases hmove with
  | kept hm | counted hm =>
    obtain ⟨-, herr, -⟩ := DomainA.marks_eq hm
    rwa [herr]
  | instruction i _ _ herr => exact herr.okOn h
  | reset herr _ _ => exact .inl herr

theorem MarksMoveB.errorOk (hmove : MarksMoveB s t) (h : s.b.errorOk = true) : t.b.errorOk = true := by
  rw [DomainB.errorOk_iff] at h ⊢
  cases hmove with
  | kept hm => rwa [show t.b.err = s.b.err from congrArg Prod.snd hm]
  | instruction i _ herr => exact herr.okOn h
  | reset herr _ => exact .inl herr

theorem MarksMoveA.frameCnt_lt (hmove : MarksMoveA s t) (h : s.a.frameCnt.toNat < s.cfg.frameRate) :
    t.a.frameCnt.toNat < s.cfg.frameRate := by
  cases hmove with
  | kept hm =>
    obtain ⟨-, -, hcnt⟩ := DomainA.marks_eq hm
    rwa [hcnt]
  | counted hm =>
    obtain ⟨-, -, hcnt⟩ := DomainA.marks_eq hm
    rw [hcnt]
    exact nextFrameCnt_lt (Nat.zero_lt_of_lt h) _
  | instruction _ _ hcnt _ => rwa [hcnt]
  | reset _ hcnt _ => rw [hcnt]; exact Nat.zero_lt_of_lt h

/-- A domain found out of reset was so before the move, or has just left reset. -/
theorem MarksMoveA.ready_cases (hmove : MarksMoveA s t) (hready : t.a.ready = true) :
    s.a.ready = true ∨ t.mem.staging = List.replicate s.cfg.slotCap 0 := by
  cases hmove with
  | kept hm | counted hm =>
    obtain ⟨hkept, -, -⟩ := DomainA.marks_eq hm
    exact .inl (hkept.symm.trans hready)
  | instruction _ hkept _ _ => exact .inl (hkept.symm.trans hready)
  | reset _ _ hstaging => exact .inr (hstaging hready)

theorem MarksMoveB.ready_cases (hmove : MarksMoveB s t) (hready : t.b.ready = true) :
    s.b.ready = true ∨ ∀ slot, t.mem.slot slot = List.replicate s.cfg.slotCap 0 := by
  cases hmove with
  | kept hm => exact .inl ((congrArg Prod.fst hm).symm.trans hready)
  | instruction _ hkept _ => exact .inl (hkept.symm.trans hready)
  | reset _ hslots => exact .inr (hslots hready)

end

/-- Settles O40, by what a step does to the marks of each domain and to the buffers: a domain that stays out of reset
keeps its MODE, and with it the length of its frames, and one that leaves reset has its frames all 0. -/
theorem everyStepKeepsRecordsDividerAndTails : Obligations.EveryStepKeepsRecordsDividerAndTails := by
  intro s t hA hB hcnt htails _ hstep
  obtain ⟨hcfg, hmodeA, hmodeB⟩ := parametersAndModeAreFixedBetweenResets s t hstep
  obtain ⟨_, _, hmoveA, hmoveB⟩ := step_marksMove hstep
  obtain ⟨_, _, hwrite⟩ := step_bufferWrite hstep
  obtain ⟨hstaging, hslots⟩ := s.tailsZero_iff.mp htails
  refine ⟨hmoveA.errorOk hA, hmoveB.errorOk hB, ?_, t.tailsZero_iff.mpr ⟨fun hready => ?_, fun hready => ?_⟩⟩
  · rw [State.frameCntOk, decide_eq_true_eq] at hcnt ⊢
    rw [hcfg]
    exact hmoveA.frameCnt_lt hcnt
  · rcases hmoveA.ready_cases hready with hbefore | hzero
    · have hmode : t.a.mode = s.a.mode := hmodeA.resolve_right fun ⟨hreset, _⟩ =>
        Bool.false_ne_true (hreset.symm.trans hbefore)
      rw [hcfg, hmode]
      exact hwrite.staging_tail hbefore (hstaging hbefore)
    · rw [hzero]
      exact zeroFrom_replicate ..
  · rcases hmoveB.ready_cases hready with hbefore | hzero
    · have hmode : t.b.mode = s.b.mode := hmodeB.resolve_right fun ⟨hreset, _⟩ =>
        Bool.false_ne_true (hreset.symm.trans hbefore)
      rw [hcfg, hmode]
      exact hwrite.slot_tails hbefore (hslots hbefore)
    · intro slot
      rw [hzero slot]
      exact zeroFrom_replicate ..

end Sys2Proof.Machine
end

section
/-! PROOFS. The frame channel's hazards (R506, R507): what a synchroniser's step ends, two engines that wait at once, and a
token in flight under the model's turns. -/

namespace Sys2Proof.Machine

/-! ## What a synchroniser's step ends -/

/-- R371, R73: from phase (b) the request synchroniser brings the token, and no POP waits for it any longer. -/
theorem reqSyncStep_of_tokenInFlight {s : State} (hready : s.b.ready = true)
    (hphase : s.handshake = some .tokenInFlight) :
    (reqSyncStep s).handshake = some .tokenPending ∧ (reqSyncStep s).b.tokenPending = true
      ∧ (reqSyncStep s).b.waitToken = false := by
  obtain ⟨-, hsync⟩ := (reqSyncStep_cases s).resolve_left fun ⟨hreset, _⟩ =>
    Bool.false_ne_true (hreset.symm.trans hready)
  obtain ⟨-, -, hack, hackSync⟩ := s.tokenBits_eq_iff.mp ((s.handshake_eq_some_iff _).mp hphase)
  rw [hsync, State.handshake_eq_some_iff, State.tokenBits_eq_iff]
  exact ⟨⟨rfl, rfl, hack, hackSync⟩, by simp [DomainB.tokenPending, hack], by simp [hack]⟩

/-- R371, R63: from phase (d) the acknowledge synchroniser brings the release, and no PUBLISH waits for it any longer. -/
theorem ackSyncStep_of_releaseInFlight {s : State} (hready : s.a.ready = true)
    (hphase : s.handshake = some .releaseInFlight) :
    (ackSyncStep s).handshake = some .idle ∧ (ackSyncStep s).a.waitStaging = false := by
  obtain ⟨-, hsync⟩ := (ackSyncStep_cases s).resolve_left fun ⟨hreset, _⟩ =>
    Bool.false_ne_true (hreset.symm.trans hready)
  obtain ⟨-, hreqSync, hack, -⟩ := s.tokenBits_eq_iff.mp ((s.handshake_eq_some_iff _).mp hphase)
  rw [hsync, State.handshake_eq_some_iff, State.tokenBits_eq_iff]
  exact ⟨⟨rfl, hreqSync, hack, hack⟩, by simp [hack]⟩

/-! ## Two engines that wait at once -/

/-- Of the positions only PUBLISH's test has the wait, and only while the buffer is taken (R63, R351). -/
theorem DomainA.stagingFree_eq_false_of_waitStaging {p : Params} {a : DomainA} (h : a.engineOk p = true)
    (hwait : a.waitStaging = true) : a.stagingFree = false := by
  cases hpos : a.pos with
  | publish =>
    obtain ⟨-, -, -, htaken⟩ := (DomainA.engineOk_publish hpos).mp h
    exact htaken hwait
  | _ => simp_all [DomainA.engineOk]

/-- Of the positions only POP's test has the wait, and only while no token pends (R73, R357). -/
theorem DomainB.tokenPending_eq_false_of_waitToken {b : DomainB} (h : b.engineOk = true) (hwait : b.waitToken = true) :
    b.tokenPending = false := by
  cases hpos : b.pos with
  | pop =>
    obtain ⟨-, -, -, hnone⟩ := (DomainB.engineOk_pop hpos).mp h
    exact hnone hwait
  | _ => simp_all [DomainB.engineOk]

/-- A PUBLISH waits in another phase than (a): there STAGING_FREE is 1 (R63). -/
theorem State.Consistent.handshake_ne_idle_of_waitStaging {s : State} (h : s.Consistent) (hwait : s.a.waitStaging = true) :
    s.handshake ≠ some .idle := by
  intro hphase
  obtain ⟨-, -, -, hackSync⟩ := s.tokenBits_eq_iff.mp ((s.handshake_eq_some_iff _).mp hphase)
  have htaken := DomainA.stagingFree_eq_false_of_waitStaging h.producer hwait
  simp [DomainA.stagingFree, hackSync] at htaken

/-- A POP waits in another phase than (c): there TOKEN_PENDING is 1 (R73). -/
theorem State.Consistent.handshake_ne_tokenPending_of_waitToken {s : State} (h : s.Consistent) (hwait : s.b.waitToken = true) :
    s.handshake ≠ some .tokenPending := by
  intro hphase
  obtain ⟨-, hreqSync, hack, -⟩ := s.tokenBits_eq_iff.mp ((s.handshake_eq_some_iff _).mp hphase)
  have hnone := DomainB.tokenPending_eq_false_of_waitToken h.consumer hwait
  simp [DomainB.tokenPending, hreqSync, hack] at hnone

/-- Settles O48, by the phases in which each engine can wait: the phase is none of those two, and from each other one a
synchroniser's step goes on. -/
theorem noStateHasBothEnginesWaitingForEachOther : Obligations.NoStateHasBothEnginesWaitingForEachOther := by
  intro s hinv hreadyA hreadyB hwaitA hwaitB
  have hs := (State.engineInv_iff s).mp hinv
  obtain ⟨ph, hphase⟩ := hs.exists_phase
  cases ph with
  | idle => exact absurd hphase (hs.handshake_ne_idle_of_waitStaging hwaitA)
  | tokenPending => exact absurd hphase (hs.handshake_ne_tokenPending_of_waitToken hwaitB)
  | tokenInFlight =>
    obtain ⟨hto, -, hended⟩ := reqSyncStep_of_tokenInFlight hreadyB hphase
    exact .inl ⟨hphase, hto, hended⟩
  | releaseInFlight => exact .inr ⟨hphase, ackSyncStep_of_releaseInFlight hreadyA hphase⟩

/-! ## What the agents leave alone: the environment's moves, the turn, a domain out of reset -/

/-- The moves the environment has chosen, and whose turn it is when there are none (log 1). -/
def State.schedule (s : State) : List Event × Agent := (s.sched, s.turn)

theorem State.finishA_schedule (s : State) (next : ProducerPos) : (s.finishA next).schedule = s.schedule := by
  unfold State.finishA
  split <;> rfl

theorem State.startPhase_schedule (s : State) (ph : Phase) : (s.startPhase ph).schedule = s.schedule := by
  cases ph <;> rfl

theorem State.captureEnd_schedule (s : State) : s.captureEnd.schedule = s.schedule := by
  by_cases hop : s.a.op = opRun
  · rw [State.captureEnd_run hop]; rfl
  · simp [State.captureEnd, State.schedule, hop]

theorem State.processBody_schedule (s : State) : s.processBody.schedule = s.schedule := by
  unfold State.processBody
  split <;> rfl

theorem State.takeSample_schedule (s : State) (v : Half) : (s.takeSample v).schedule = s.schedule := by
  unfold State.takeSample
  split <;> rfl

theorem producerStep_schedule (s : State) : (producerStep s).schedule = s.schedule := by
  cases hpos : s.a.pos with
  | idle => rw [producerStep_idle hpos]
  | starting ph => rw [producerStep_starting hpos, State.startPhase_schedule]
  | capture _ =>
    simp only [producerStep, hpos]
    split_ifs
    · rfl
    · rfl
    · exact s.captureEnd_schedule
  | edgeFirst | edgeScan _ _ =>
    simp only [producerStep, hpos]
    split_ifs <;> rfl
  | edgeFill _ cnt =>
    simp only [producerStep, hpos]
    split_ifs
    · rfl
    · rfl
    · exact State.finishA_schedule ..
  | body =>
    rw [producerStep_body hpos]
    exact (State.finishA_schedule ..).trans s.processBody_schedule
  | publish =>
    simp only [producerStep, hpos, State.publishTest]
    split_ifs <;> rfl
  | publishCopy => rw [producerStep_publishCopy hpos]; rfl
  | publishToggle => rw [producerStep_publishToggle hpos]; exact State.finishA_schedule ..

theorem consumerStep_schedule (s : State) : (consumerStep s).schedule = s.schedule := by
  cases hpos : s.b.pos with
  | idle => rw [consumerStep_idle hpos]
  | pop =>
    simp only [consumerStep, hpos, State.popTest]
    split_ifs <;> rfl
  | popCopy => rw [consumerStep_popCopy hpos]; rfl
  | popRelease => rw [consumerStep_popRelease hpos]; rfl

theorem adcTransfer_schedule (s : State) : (adcTransfer s).schedule = s.schedule := by
  unfold adcTransfer
  split
  · rfl
  · split
    · exact State.takeSample_schedule ..
    · rfl

theorem agentStep_schedule (g : Agent) (s : State) : (agentStep g s).schedule = s.schedule := by
  cases g with
  | producerEngine => exact producerStep_schedule s
  | consumerEngine => exact consumerStep_schedule s
  | adcSource => exact adcTransfer_schedule s
  | reqSynchroniser => simp only [agentStep, reqSyncStep]; split <;> rfl
  | ackSynchroniser => simp only [agentStep, ackSyncStep]; split <;> rfl
  | clockA => simp only [agentStep, clockStepA]; split <;> rfl
  | clockB => simp only [agentStep, clockStepB]; split <;> rfl
  | resetSynchroniserA => simp only [agentStep, leaveResetA]; split <;> rfl
  | resetSynchroniserB => simp only [agentStep, leaveResetB]; split <;> rfl

/-- No agent takes domain B into reset (R480). -/
theorem agentStep_b_ready (g : Agent) {s : State} (hready : s.b.ready = true) : (agentStep g s).b.ready = true := by
  cases g with
  | producerEngine => rwa [agentStep, producerStep_b]
  | consumerEngine => exact (congrArg Prod.fst (consumerStep_marks s)).trans hready
  | adcSource => rwa [agentStep, adcTransfer_b]
  | reqSynchroniser => simp only [agentStep, reqSyncStep]; split <;> exact hready
  | ackSynchroniser => simp only [agentStep, ackSyncStep]; split <;> exact hready
  | clockA => simp only [agentStep, clockStepA]; split <;> exact hready
  | clockB => simp only [agentStep, clockStepB]; split <;> exact hready
  | resetSynchroniserA => simp only [agentStep, leaveResetA]; split <;> exact hready
  | resetSynchroniserB => simp only [agentStep, leaveResetB]; split; exacts [rfl, hready]

/-! ## A token in flight -/

/-- Domain B runs, a token is on its way to it, and the environment chooses no move. -/
structure State.TokenComing (s : State) : Prop where
  consistent : s.Consistent
  ready : s.b.ready = true
  sched : s.sched = []
  phase : s.handshake = some .tokenInFlight

/-- From phase (b) only the request synchroniser's step, or the assertion of reset, leaves the phase (R371). -/
theorem TokenMove.keeps_tokenInFlight {s t : State} {g : Agent} (hmove : TokenMove s t (some g))
    (hg : g ≠ .reqSynchroniser) (hphase : s.handshake = some .tokenInFlight) (hready : t.b.ready = true) :
    t.handshake = some .tokenInFlight := by
  cases hmove with
  | kept hbits => exact (State.handshake_congr hbits).trans hphase
  | received => exact absurd rfl hg
  | published hfrom | popped hfrom | released hfrom => exact absurd (hfrom.symm.trans hphase) (by decide)
  | reset _ _ hreset => exact absurd (hreset.symm.trans hready) Bool.false_ne_true

/-- Where the environment chooses no move, the step is that of the agent whose turn it is (log 1). -/
theorem step_of_no_event {s : State} (h : s.sched = []) :
    step s = .next (agentStep s.turn { s with turn := nextTurn s.turn }) := by
  simp [step, h]

/-- A turn of another agent than the request synchroniser leaves the token coming, and passes the turn on. -/
theorem State.TokenComing.step {s : State} (h : s.TokenComing) (hturn : s.turn ≠ .reqSynchroniser) :
    ∃ t, Machine.step s = .next t ∧ t.TokenComing ∧ t.turn = nextTurn s.turn := by
  obtain ⟨hconsistent, hmove⟩ := agentStep_consistent s.turn
    (h.consistent.withEnvironment s.modeStrap s.adcOffered s.sched (nextTurn s.turn))
  obtain ⟨hsched, hnext⟩ := Prod.mk.inj (agentStep_schedule s.turn { s with turn := nextTurn s.turn })
  have hready := agentStep_b_ready s.turn (s := { s with turn := nextTurn s.turn }) h.ready
  exact ⟨_, step_of_no_event h.sched,
    ⟨hconsistent, hready, hsched.trans h.sched, hmove.keeps_tokenInFlight hturn h.phase hready⟩, hnext⟩

/-- The request synchroniser's turn brings the token. -/
theorem State.TokenComing.step_arrives {s : State} (h : s.TokenComing) (hturn : s.turn = .reqSynchroniser) :
    ∃ t, Machine.step s = .next t ∧ t.handshake = some .tokenPending ∧ t.b.tokenPending = true
      ∧ t.b.waitToken = false := by
  refine ⟨_, step_of_no_event h.sched, ?_⟩
  rw [hturn]
  exact reqSyncStep_of_tokenInFlight h.ready h.phase

/-- From every agent the request synchroniser's turn comes within one round. -/
theorem nextTurn_reaches_reqSynchroniser (g : Agent) : ∃ n ≤ 8, nextTurn^[n] g = .reqSynchroniser := by
  cases g with
  | producerEngine => exact ⟨3, by decide, rfl⟩
  | consumerEngine => exact ⟨2, by decide, rfl⟩
  | adcSource => exact ⟨1, by decide, rfl⟩
  | reqSynchroniser => exact ⟨0, by decide, rfl⟩
  | ackSynchroniser => exact ⟨8, by decide, rfl⟩
  | clockA => exact ⟨7, by decide, rfl⟩
  | clockB => exact ⟨6, by decide, rfl⟩
  | resetSynchroniserA => exact ⟨5, by decide, rfl⟩
  | resetSynchroniserB => exact ⟨4, by decide, rfl⟩

/-- A token that is coming is pending one step after the `n` turns that bring the request synchroniser's, or sooner. -/
theorem State.TokenComing.arrives {n : Nat} {s : State} (h : s.TokenComing)
    (hturn : nextTurn^[n] s.turn = .reqSynchroniser) :
    ∃ k t, k ≤ n + 1 ∧ Host.Core.run Sys2Proof.core k s = .next t ∧ t.handshake = some .tokenPending
      ∧ t.b.tokenPending = true ∧ t.b.waitToken = false := by
  induction n generalizing s with
  | zero =>
    obtain ⟨t, hstep, harrived⟩ := h.step_arrives hturn
    exact ⟨1, t, le_rfl, run_succ_iff.mpr ⟨t, hstep, rfl⟩, harrived⟩
  | succ n ih =>
    by_cases hnow : s.turn = .reqSynchroniser
    · obtain ⟨t, hstep, harrived⟩ := h.step_arrives hnow
      exact ⟨1, t, Nat.le_add_left .., run_succ_iff.mpr ⟨t, hstep, rfl⟩, harrived⟩
    · obtain ⟨u, hstep, hcoming, hnext⟩ := h.step hnow
      obtain ⟨k, t, hk, hrun, harrived⟩ := ih hcoming (hnext ▸ hturn)
      exact ⟨k + 1, t, Nat.succ_le_succ hk, run_succ_iff.mpr ⟨u, hstep, hrun⟩, harrived⟩

/-- Settles O49, by the turns up to the request synchroniser's: each before it leaves the token coming. -/
theorem tokenCrossesWithinOneRound : Obligations.TokenCrossesWithinOneRound := by
  intro s hinv _ hready hsched hphase
  obtain ⟨n, hn, hturn⟩ := nextTurn_reaches_reqSynchroniser s.turn
  have hcoming : s.TokenComing := ⟨(State.engineInv_iff s).mp hinv, hready, hsched, hphase⟩
  obtain ⟨k, t, hk, harrived⟩ := hcoming.arrives hturn
  exact ⟨k, t, hk.trans (Nat.succ_le_succ hn), harrived⟩

end Sys2Proof.Machine
end
